-- ==== Sys2Proof/Word.lean ====
section
/-!
DEFINITION. The word types of the block (spec 00_scope.md R7, R8, R10): every value is an unsigned bit vector,
bit 0 the least significant.
-/

namespace Sys2Proof

/-- A byte: slave id, function code, CRC input byte, frame cell, read port index (R7, R41). -/
abbrev Byte := BitVec 8

/-- A 16-bit value: accumulator, CRC, register address, register count, read port data (R7, R41). -/
abbrev Half := BitVec 16

/-- A 32-bit command word (R8, R60). -/
abbrev Word := BitVec 32

end Sys2Proof
end

