-- ==== Sys2Proof/Syntax.lean ====
section
/-!
DEFINITION. The nine commands of the block (spec 30_encoding.md R62; spec/opcode_table.json), one constructor per row.
Each operand has exactly the width of its field (R66), so every term is well formed (WellFormed.lean says what can
be ill-formed: a word, or a line of assembler).
-/

namespace Sys2Proof

/-- A command of the block (R62). -/
inductive Instr where
  /-- NOP (R120): do nothing. -/
  | nop
  /-- CRC_INIT (R87): start a new checksum. -/
  | crcInit
  /-- CRC_FEED b (R88): process one data byte. -/
  | crcFeed (b : Byte)
  /-- CRC_READ (R89): latch the result. -/
  | crcRead
  /-- CRC_CMP h (R90): compare the checksum with an expected value. -/
  | crcCmp (h : Half)
  /-- SET_SLAVE b (R100): set the slave id. -/
  | setSlave (b : Byte)
  /-- SET_FUNC b (R101): set the function code. -/
  | setFunc (b : Byte)
  /-- SET_COUNT h (R102): set the register count. -/
  | setCount (h : Half)
  /-- BUILD a (R103, R104): build the request frame for a register address. -/
  | build (a : Half)
deriving DecidableEq, Repr

end Sys2Proof
end

