-- ==== Sys2Proof/Decode.lean ====
section
/-!
DEFINITION. The command word (spec 30_encoding.md R60 to R66): the encoding tables, the decoder, total on all 32-bit
words and rejecting by the name of the error it raises, and the encoder (R69) from the same tables.
-/

namespace Sys2Proof

/-! ### Names -/

/-- The two errors of the block (R130). They are what a word that spells no command raises. -/
inductive CmdError where
  /-- `ILLEGAL_OP`: the opcode is not assigned (R63). -/
  | illegalOp
  /-- `RESERVED_NZ`: the opcode is assigned and a reserved bit of its form is 1 (R64). -/
  | reservedNz
deriving DecidableEq, Repr

/-- The operand forms (R61). -/
inductive Form where
  /-- No operand: all of IMM is reserved. -/
  | N
  /-- Byte operand: IMM[15:8] is reserved. -/
  | B
  /-- Halfword operand: no bit of IMM is reserved. -/
  | H
deriving DecidableEq, Repr

/-- The mnemonics of the rows of R62. -/
inductive Mnemonic where
  | nop | crcInit | crcFeed | crcRead | crcCmp | setSlave | setFunc | setCount | build
deriving DecidableEq, Repr

/-! ### The encoding tables -/

/-- The rows of R62, in its order. -/
def Mnemonic.rows : List Mnemonic :=
  [.nop, .crcInit, .crcFeed, .crcRead, .crcCmp, .setSlave, .setFunc, .setCount, .build]

/-- Column OP of R62. -/
def Mnemonic.op : Mnemonic → Byte
  | .nop => 0x00
  | .crcInit => 0x01
  | .crcFeed => 0x02
  | .crcRead => 0x03
  | .crcCmp => 0x04
  | .setSlave => 0x10
  | .setFunc => 0x11
  | .setCount => 0x12
  | .build => 0x13

/-- Column form of R62. -/
def Mnemonic.form : Mnemonic → Form
  | .nop | .crcInit | .crcRead => .N
  | .crcFeed | .setSlave | .setFunc => .B
  | .crcCmp | .setCount | .build => .H

/-- The mask of a form: OP and every reserved bit (R61, R62). -/
def Form.mask : Form → Word
  | .N => 0xFFFFFFFF
  | .B => 0xFFFFFF00
  | .H => 0xFFFF0000

/-- Column mask of R62. -/
def Mnemonic.mask (m : Mnemonic) : Word := m.form.mask

/-- Column match of R62: the opcode above 24 zero bits. -/
def Mnemonic.pattern (m : Mnemonic) : Word := m.op.setWidth 32 <<< 24

/-- A word selects a row when `(W AND mask) = match` (R62). -/
def Mnemonic.selectedBy (m : Mnemonic) (w : Word) : Bool := w &&& m.mask == m.pattern

/-! ### The fields of a word -/

/-- `OP = W[31:24]` (R60). -/
def opField (w : Word) : Byte := w.extractLsb' 24 8

/-- `RSV = W[23:16]` (R60). -/
def rsvField (w : Word) : Byte := w.extractLsb' 16 8

/-- `IMM = W[15:0]`, and the operand of form H (R60, R61). -/
def immField (w : Word) : Half := w.extractLsb' 0 16

/-- The operand of form B, the low byte of IMM, `W[7:0]` (R61). -/
def byteOperand (imm : Half) : Byte := imm.extractLsb' 0 8

/-- The command of a row with the operand that its IMM field carries (R61, R66). -/
def Mnemonic.command (m : Mnemonic) (imm : Half) : Instr :=
  match m with
  | .nop => .nop
  | .crcInit => .crcInit
  | .crcFeed => .crcFeed (byteOperand imm)
  | .crcRead => .crcRead
  | .crcCmp => .crcCmp imm
  | .setSlave => .setSlave (byteOperand imm)
  | .setFunc => .setFunc (byteOperand imm)
  | .setCount => .setCount imm
  | .build => .build imm

/-! ### The decoder -/

/-- The row of an opcode; none for the 245 unassigned ones (R63). -/
def rowOfOp (op : Byte) : Option Mnemonic := Mnemonic.rows.find? (fun m => m.op == op)

/-- `decode(W)` of R65: the opcode is tested first, then the reserved bits of its row. -/
def decode (w : Word) : Except CmdError Instr :=
  match rowOfOp (opField w) with
  | none => .error .illegalOp
  | some m => if m.selectedBy w then .ok (m.command (immField w)) else .error .reservedNz

/-! ### The encoder -/

/-- The row of a command (R62). -/
def Instr.mnemonic : Instr → Mnemonic
  | .nop => .nop
  | .crcInit => .crcInit
  | .crcFeed _ => .crcFeed
  | .crcRead => .crcRead
  | .crcCmp _ => .crcCmp
  | .setSlave _ => .setSlave
  | .setFunc _ => .setFunc
  | .setCount _ => .setCount
  | .build _ => .build

/-- The operand of a command, zero-extended to the 16 bits of IMM; 0 where the form has none (R61, R66). -/
def Instr.imm : Instr → Half
  | .nop | .crcInit | .crcRead => 0
  | .crcFeed b | .setSlave b | .setFunc b => b.setWidth 16
  | .crcCmp h | .setCount h | .build h => h

/-- `W = (OP << 24) OR operand` (R69). -/
def encode (i : Instr) : Word := (i.mnemonic.op.setWidth 32 <<< 24) ||| i.imm.setWidth 32

/-! ### The host's view of a table word -/

/-- The command that the decoder reads from a word given as a number whose bits from `nbits` up are 0.
A command is one whole 32-bit word with no byte order (R45, R60), so the word is given to the decoder as it is, and
a number that needs more than 32 bits spells no command. -/
def decodeTableWord (nbits w : Nat) : Option Instr :=
  if w % 2 ^ nbits < 2 ^ 32 then
    match decode (BitVec.ofNat 32 (w % 2 ^ nbits)) with
    | .ok i => some i
    | .error _ => none
  else none

end Sys2Proof
end

