-- ==== Sys2Proof/Config.lean ====
section
/-!
DEFINITION. What is fixed for the life of a model instance (spec 00_scope.md R8, 10_state.md R20), and the free
values: the contents that the spec leaves to a draw at reset (10_state.md R22, R26; 93_implementation_defined.md
U1, U2).
-/

namespace Sys2Proof

/-- The parameters of the block (R8). The widths that R8 also lists are the types of Word.lean. -/
structure Config where
  /-- `P_NULL_CRC_SKIP` (R8, R104): whether BUILD skips an address whose CRC is 0x0000. -/
  nullCrcSkip : Bool
  /-- `RESET_SLAVE` (R8, R23). -/
  resetSlave : Byte
  /-- `RESET_FUNC` (R8, R24). -/
  resetFunc : Byte
  /-- `RESET_COUNT` (R8, R25). -/
  resetCount : Half
deriving DecidableEq, Repr

/-- The value that the spec gives each parameter (R8). The machine of Machine/Step.lean is the one of this
configuration (log 7). -/
def Config.taken : Config :=
  { nullCrcSkip := false, resetSlave := 0x01, resetFunc := 0x04, resetCount := 0x0001 }

/-- The content of CRC_OUT after the n-th reset: any 16-bit value, one draw per reset (R22, U1).
A free value: it has no body (log 4). -/
opaque Config.crcOutDraw : Nat → Half

/-- The content of cell i of FRAME after the n-th reset: any 8-bit value, one draw per cell per reset (R26, U2).
A free value: it has no body (log 5). -/
opaque Config.frameDraw : Nat → Fin 8 → Byte

end Sys2Proof
end

