-- ==== Sys2Proof/Machine/State.lean ====
section
/-!
DEFINITION. The state of the block as plain data (spec 10_state.md R20 to R28), the model's own fields that stand for
the host (00_scope.md R14), the reasons a step can stop, and the state right after reset (70_reset_and_hazards.md R150).
-/

namespace Sys2Proof.Machine

/-- The values of the error code register ERR (10_state.md R28). Code 3 is never produced and is no value of this type
(93_implementation_defined.md U5, log 8). -/
inductive ErrCode where
  /-- Code 0: no error since reset. -/
  | noError
  /-- Code 1: `ILLEGAL_OP`. -/
  | illegalOp
  /-- Code 2: `RESERVED_NZ`. -/
  | reservedNz
deriving DecidableEq, Repr

/-- The three operations of the host (00_scope.md R14). -/
inductive HostOp where
  /-- `reset` (70_reset_and_hazards.md R150); loss of power is one too (60_exceptions.md R144, log 14). -/
  | reset
  /-- `issue(W)`: apply a command word (30_encoding.md R65). -/
  | issue (w : Word)
  /-- `read(idx)`: read the read port (20_memory.md R41). -/
  | read (idx : Byte)
deriving DecidableEq, Repr

/-- A value that the read port has returned to the host, with the index it was read at (20_memory.md R41). -/
structure Answer where
  idx : Byte
  value : Half
deriving DecidableEq, Repr

/-- The state of the machine. The first eleven fields are the block's record, "and nothing else persists from one host
operation to the next" (R20); the last three are the model's own (log 1, 3, 6). -/
structure State where
  /-- `ACC`, the CRC accumulator (R21). -/
  acc : Half
  /-- `CRC_OUT`, the latched, byte-swapped CRC (R22). -/
  crcOut : Half
  /-- `SLAVE`, the slave id used by BUILD (R23). -/
  slave : Byte
  /-- `FUNC`, the function code used by BUILD (R24). -/
  func : Byte
  /-- `COUNT`, the register count used by BUILD (R25). -/
  count : Half
  /-- `FRAME[0..7]`, the last request frame built, cell 0 sent first (R26). -/
  frame : Vector Byte 8
  /-- `OUTV`: CRC_OUT written since reset (R27). -/
  outv : Bool
  /-- `FRAMEV`: the last BUILD wrote FRAME (R27). -/
  framev : Bool
  /-- `MATCH`: result of the last CRC_CMP (R27). -/
  matched : Bool
  /-- `NULLCRC`: the last BUILD was skipped for a null CRC (R27). -/
  nullcrc : Bool
  /-- `ERR`: first command error since reset (R28). -/
  err : ErrCode
  /-- How many resets have drawn the contents of CRC_OUT and FRAME: the model's counter of its free values (log 6). -/
  draws : Nat
  /-- The operations the host has still to apply, in its order (R14, 20_memory.md R50): the machine's input (log 1). -/
  hostOps : List HostOp
  /-- What the read port has returned to the host, the newest first: the machine's output (log 3). -/
  answers : List Answer
deriving DecidableEq, Repr

/-- The reasons for which the machine stops with a fault: none. The block does not stop (60_exceptions.md R131), no legal
command fails (R134), and the two command errors are recorded in ERR and the block goes on (R130, R132). Nobody raises
one (safe or unsafe does not arise; log 12). -/
inductive Fault
deriving DecidableEq, Repr

/-- The reasons for which the model gives an instruction no meaning. -/
inductive Refusal where
  /-- Raised by an arm of exec whose instruction has no meaning yet (safe). No arm of this model raises it. -/
  | notModelled (mnemonic : String)
deriving DecidableEq, Repr

/-- The state after the n-th reset under a configuration (70_reset_and_hazards.md R150): the stated values, and for
CRC_OUT and FRAME the free values drawn at that reset (log 4, 5). -/
def State.afterReset (c : Config) (n : Nat) : State :=
  { acc := 0xFFFF
    crcOut := Config.crcOutDraw n
    slave := c.resetSlave
    func := c.resetFunc
    count := c.resetCount
    frame := Vector.ofFn (Config.frameDraw n)
    outv := false
    framev := false
    matched := false
    nullcrc := false
    err := .noError
    draws := n + 1
    hostOps := []
    answers := [] }

/-- The machine right after its first reset, with nothing applied yet by the host (R150, R152). -/
def State.reset : State := State.afterReset Config.taken 0

end Sys2Proof.Machine
end

