-- ==== Sys2Proof/Machine/Flags.lean ====
section
/-!
DEFINITION. The status flags, the STATUS word and the error code (spec 10_state.md R27, R28).
-/

namespace Sys2Proof.Machine

/-- The 2-bit code of a value of ERR (R28). -/
def ErrCode.code : ErrCode → BitVec 2
  | .noError => 0
  | .illegalOp => 1
  | .reservedNz => 2

/-- `ERRF`: not stored, 1 exactly when `ERR != 0` (R27). -/
def errf (s : State) : Bool := s.err.code != 0

/-- `zext_16(ERRF ++ NULLCRC ++ MATCH ++ FRAMEV ++ OUTV)` (R27, 20_memory.md R42). -/
def statusWord (s : State) : Half :=
  (BitVec.ofBool (errf s) ++ BitVec.ofBool s.nullcrc ++ BitVec.ofBool s.matched ++ BitVec.ofBool s.framev
    ++ BitVec.ofBool s.outv).setWidth 16

/-- OUTV <- 1: CRC_READ (R27). -/
def setOutv (s : State) : State := { s with outv := true }

/-- MATCH <- v: CRC_CMP (R27). -/
def setMatched (v : Bool) (s : State) : State := { s with matched := v }

/-- FRAMEV <- 1 and NULLCRC <- 0: a BUILD that writes FRAME (R27). -/
def markBuilt (s : State) : State := { s with framev := true, nullcrc := false }

/-- FRAMEV <- 0 and NULLCRC <- 1: a BUILD skipped for a null CRC (R27, R104). -/
def markSkipped (s : State) : State := { s with framev := false, nullcrc := true }

end Sys2Proof.Machine
end

