-- ==== Sys2Proof/Machine/Ops.lean ====
section
/-!
DEFINITION. The named operations on the registers of the block: writing one, recording an error, reading the read port,
reset, and taking the host's next operation.
-/

namespace Sys2Proof.Machine

/-! ### Writing a register -/

/-- ACC <- v (10_state.md R21). -/
def setAcc (v : Half) (s : State) : State := { s with acc := v }

/-- CRC_OUT <- v (R22). -/
def setCrcOut (v : Half) (s : State) : State := { s with crcOut := v }

/-- SLAVE <- v (R23). -/
def setSlave (v : Byte) (s : State) : State := { s with slave := v }

/-- FUNC <- v (R24). -/
def setFunc (v : Byte) (s : State) : State := { s with func := v }

/-- COUNT <- v (R25). -/
def setCount (v : Half) (s : State) : State := { s with count := v }

/-- FRAME[i] <- fr[i] for i in 0..7, all cells together (R26). -/
def setFrame (fr : Vector Byte 8) (s : State) : State := { s with frame := fr }

/-- ERR <- v (R28). -/
def setErr (v : ErrCode) (s : State) : State := { s with err := v }

/-! ### Raising an error -/

/-- The value of ERR that names an error (60_exceptions.md R130). -/
def errCodeOf : CmdError → ErrCode
  | .illegalOp => .illegalOp
  | .reservedNz => .reservedNz

/-- `raise CmdError(code)` (R131, R132): ERR keeps the first error, and nothing else changes. The block saves no state,
changes no mode and transfers control nowhere (R137), and there is no return from an error (R138). -/
def raiseError (e : CmdError) (s : State) : State :=
  if s.err = .noError then setErr (errCodeOf e) s else s

/-! ### The read port -/

/-- `read(idx)` (20_memory.md R42, R43): a function of the state alone (R44). -/
def readPort (s : State) (idx : Byte) : Half :=
  match idx.toNat with
  | 0x00 => statusWord s
  | 0x01 => s.err.code.setWidth 16
  | 0x02 => s.acc
  | 0x03 => s.crcOut
  | 0x04 => s.slave.setWidth 16
  | 0x05 => s.func.setWidth 16
  | 0x06 => s.count
  | n => if 0x10 ≤ n then ((s.frame.toList[n - 0x10]?).getD 0).setWidth 16 else 0

/-! ### The host's operations other than issue -/

/-- `reset` (70_reset_and_hazards.md R150, R151): every field of the block as after a reset, with new draws. The host's
own side, what it has still to apply and what it has read, is no state of the block and stays (log 1, 3). -/
def hostReset (c : Config) (s : State) : State :=
  { State.afterReset c s.draws with hostOps := s.hostOps, answers := s.answers }

/-- `read(idx)`: the value goes to the host, and no field of the block changes (20_memory.md R44). -/
def hostRead (idx : Byte) (s : State) : State :=
  { s with answers := { idx := idx, value := readPort s idx } :: s.answers }

/-- Takes the operations that the host has still to apply. -/
def setHostOps (ops : List HostOp) (s : State) : State := { s with hostOps := ops }

end Sys2Proof.Machine
end

