-- ==== Sys2Proof/Machine/Control.lean ====
section
/-!
DEFINITION. The control command (spec 42_control.md R120).
-/

namespace Sys2Proof.Machine

/-- The effect of NOP: no field changes (R120). -/
def nopEffect (s : State) : State := s

/-- NOP (R120). -/
def execNop (s : State) : Host.Outcome State Fault Refusal := .next (nopEffect s)

end Sys2Proof.Machine
end

