-- ==== Sys2Proof/Machine/Operands.lean ====
section
/-!
DEFINITION. Bytes of a 16-bit value and byte orders (spec 20_memory.md R45, 30_encoding.md R66 to R68). The operand
fields of a command word are in Decode.lean.
-/

namespace Sys2Proof.Machine

/-- `v[15:8]`. -/
def hiByte (v : Half) : Byte := v.extractLsb' 8 8

/-- `v[7:0]`. -/
def loByte (v : Half) : Byte := v.extractLsb' 0 8

/-- `hi ++ lo`, the first byte in the high bits: the value of two bytes in transmission order (R11, R68). -/
def ofBytes (hi lo : Byte) : Half := hi ++ lo

/-- The two bytes of a value in transmission order, most significant first (R67). -/
def bigEndian (v : Half) : List Byte := [hiByte v, loByte v]

end Sys2Proof.Machine
end

