-- ==== Sys2Proof/Machine/Crc.lean ====
section
/-!
DEFINITION. The checksum as functions (spec 40_crc.md R80 to R85).
-/

namespace Sys2Proof.Machine

/-- The reflected polynomial constant (R2, R7, R80). -/
def crcPoly : Half := 0xA001

/-- The value the accumulator is initialised to (R7, R82, R87). -/
def crcInitial : Half := 0xFFFF

/-- `crc_bit(a)`, one shift iteration: the shift first, then the XOR of the shifted value (R80). -/
def crcBit (a : Half) : Half := if a.getLsbD 0 then (a >>> 1) ^^^ crcPoly else a >>> 1

/-- n shift iterations. -/
def crcBits : Nat → Half → Half
  | 0, t => t
  | n + 1, t => crcBits n (crcBit t)

/-- `crc_byte(a, b)`, one input byte (R81). -/
def crcByte (a : Half) (b : Byte) : Half := crcBits 8 (a ^^^ b.setWidth 16)

/-- The accumulator after a byte sequence, from a given accumulator: the first byte first (R82). -/
def crcFrom (a : Half) (data : List Byte) : Half := data.foldl crcByte a

/-- `crc_acc(data)` (R82). -/
def crcAcc (data : List Byte) : Half := crcFrom crcInitial data

/-- `swap16(v) = v[7:0] ++ v[15:8]` (R83). -/
def swap16 (v : Half) : Half := ofBytes (loByte v) (hiByte v)

/-- `crc16(data) = swap16(crc_acc(data))` (R84). -/
def crc16 (data : List Byte) : Half := swap16 (crcAcc data)

end Sys2Proof.Machine
end

