-- ==== Sys2Proof/Machine/CrcEngine.lean ====
section
/-!
DEFINITION. The commands of the CRC engine (spec 40_crc.md R87 to R90). All reads of a command see the values before it
(00_scope.md R12).
-/

namespace Sys2Proof.Machine

/-- `ACC <- 0xFFFF` (R87). -/
def crcInitEffect (s : State) : State := setAcc crcInitial s

/-- `ACC <- crc_byte(ACC, b)` (R88). -/
def crcFeedEffect (b : Byte) (s : State) : State := setAcc (crcByte s.acc b) s

/-- `CRC_OUT <- swap16(ACC); OUTV <- 1` (R89). -/
def crcReadEffect (s : State) : State := setOutv (setCrcOut (swap16 s.acc) s)

/-- `if swap16(ACC) = h then MATCH <- 1 else MATCH <- 0` (R90). -/
def crcCmpEffect (h : Half) (s : State) : State := setMatched (swap16 s.acc == h) s

/-- CRC_INIT (R87). -/
def execCrcInit (s : State) : Host.Outcome State Fault Refusal := .next (crcInitEffect s)

/-- CRC_FEED (R88). -/
def execCrcFeed (b : Byte) (s : State) : Host.Outcome State Fault Refusal := .next (crcFeedEffect b s)

/-- CRC_READ (R89). -/
def execCrcRead (s : State) : Host.Outcome State Fault Refusal := .next (crcReadEffect s)

/-- CRC_CMP (R90). -/
def execCrcCmp (h : Half) (s : State) : Host.Outcome State Fault Refusal := .next (crcCmpEffect h s)

end Sys2Proof.Machine
end

