-- ==== Sys2Proof/Machine/Frame.lean ====
section
/-!
DEFINITION. The request frame and the trailer of a response as functions (spec 30_encoding.md R67, R68).
-/

namespace Sys2Proof.Machine

/-- Bytes 0 to 5 of a request frame, the list `d` of R67. -/
def requestBody (s f : Byte) (a c : Half) : List Byte := [s, f] ++ bigEndian a ++ bigEndian c

/-- `request_frame(s, f, a, c)`: the eight bytes in transmission order (R67). -/
def requestFrame (s f : Byte) (a c : Half) : Vector Byte 8 :=
  let r := crc16 (requestBody s f a c)
  #v[s, f, hiByte a, loByte a, hiByte c, loByte c, hiByte r, loByte r]

/-- The 16-bit value of the last two cells of a frame, `fr[6] ++ fr[7]` (R104). -/
def frameTrailer (fr : Vector Byte 8) : Half := ofBytes fr[6] fr[7]

/-- The bytes of a sequence with its own CRC appended in wire order (R84, R92, R110). -/
def withCrc (p : List Byte) : List Byte := p ++ bigEndian (crc16 p)

/-- The payload of a response, `r[0..n-2]` (R68). -/
def payloadOf (r : List Byte) : List Byte := r.take (r.length - 2)

/-- The value of the trailer of a response, `r[n-2] ++ r[n-1]`, for n at least 2 (R68). -/
def trailerOf (r : List Byte) : Half := ofBytes (r.getD (r.length - 2) 0) (r.getD (r.length - 1) 0)

end Sys2Proof.Machine
end

