-- ==== Sys2Proof/Machine/FrameEncoder.lean ====
section
/-!
DEFINITION. The commands of the request frame encoder (spec 41_frame.md R100 to R105). No operand is validated beyond its
width (R105).
-/

namespace Sys2Proof.Machine

/-- `SLAVE <- b` (R100). -/
def setSlaveEffect (b : Byte) (s : State) : State := setSlave b s

/-- `FUNC <- b` (R101). -/
def setFuncEffect (b : Byte) (s : State) : State := setFunc b s

/-- `COUNT <- h` (R102). -/
def setCountEffect (h : Half) (s : State) : State := setCount h s

/-- BUILD under a configuration: R103 where `P_NULL_CRC_SKIP` is false, R104 where it is true. The CRC of the frame is
computed by requestFrame; ACC and CRC_OUT are neither read nor written. -/
def buildEffect (c : Config) (a : Half) (s : State) : State :=
  let fr := requestFrame s.slave s.func a s.count
  if c.nullCrcSkip && frameTrailer fr == 0 then markSkipped s else markBuilt (setFrame fr s)

/-- SET_SLAVE (R100). -/
def execSetSlave (b : Byte) (s : State) : Host.Outcome State Fault Refusal := .next (setSlaveEffect b s)

/-- SET_FUNC (R101). -/
def execSetFunc (b : Byte) (s : State) : Host.Outcome State Fault Refusal := .next (setFuncEffect b s)

/-- SET_COUNT (R102). -/
def execSetCount (h : Half) (s : State) : Host.Outcome State Fault Refusal := .next (setCountEffect h s)

/-- BUILD (R103), with the value of `P_NULL_CRC_SKIP` that the spec takes (log 7). -/
def execBuild (a : Half) (s : State) : Host.Outcome State Fault Refusal := .next (buildEffect Config.taken a s)

end Sys2Proof.Machine
end

