-- ==== Sys2Proof/Machine/Dispatch.lean ====
section
/-!
DEFINITION. Which definition gives each command its meaning (spec 30_encoding.md R62).
-/

namespace Sys2Proof.Machine

/-- Performs one command on a state. -/
def exec (i : Instr) (s : State) : Host.Outcome State Fault Refusal :=
  match i with
  | .nop => Sys2Proof.Machine.execNop s
  | .crcInit => Sys2Proof.Machine.execCrcInit s
  | .crcFeed b => Sys2Proof.Machine.execCrcFeed b s
  | .crcRead => Sys2Proof.Machine.execCrcRead s
  | .crcCmp h => Sys2Proof.Machine.execCrcCmp h s
  | .setSlave b => Sys2Proof.Machine.execSetSlave b s
  | .setFunc b => Sys2Proof.Machine.execSetFunc b s
  | .setCount h => Sys2Proof.Machine.execSetCount h s
  | .build a => Sys2Proof.Machine.execBuild a s

end Sys2Proof.Machine
end

