-- ==== Sys2Proof/Machine/HostPort.lean ====
section
/-!
DEFINITION. The command port: one operation of the host applied to the machine (spec 00_scope.md R14, 30_encoding.md R65).
-/

namespace Sys2Proof.Machine

/-- `issue(W): decode(W), then perform the command's rule on the state` (R65); a word that spells no command raises its
error (60_exceptions.md R131). -/
def issueWord (w : Word) (s : State) : Host.Outcome State Fault Refusal :=
  match decode w with
  | .ok i => exec i s
  | .error e => .next (raiseError e s)

/-- Applies one operation of the host (R14). -/
def applyHostOp (op : HostOp) (s : State) : Host.Outcome State Fault Refusal :=
  match op with
  | .reset => .next (hostReset Config.taken s)
  | .issue w => issueWord w s
  | .read idx => .next (hostRead idx s)

/-- The host applies the first of the operations it has still to apply, completely before the next (20_memory.md R50); where it
has none, the passive block keeps its state (R14, 60_exceptions.md R144; log 2). -/
def applyNextHostOp (s : State) : Host.Outcome State Fault Refusal :=
  match s.hostOps with
  | [] => .next s
  | op :: rest => applyHostOp op (setHostOps rest s)

/-- The word that a number spells, as an operation the host applies next; its bits from `nbits` up are 0 (log 9). -/
def queueWordFirst (nbits w : Nat) (s : State) : State :=
  setHostOps (.issue (BitVec.ofNat 32 (w % 2 ^ nbits)) :: s.hostOps) s

end Sys2Proof.Machine
end

