-- ==== Sys2Proof/Machine/Step.lean ====
section
/-!
DEFINITION. The step of the machine: one operation of the host (spec 00_scope.md R14, R15), and the state in which the host issues
a given word next.
-/

namespace Sys2Proof.Machine

/-- One step: the next operation of the host takes effect completely (R15, 20_memory.md R50). -/
def step (s : State) : Host.Outcome State Fault Refusal := applyNextHostOp s

/-- The state in which the host issues the given word next. The block fetches nothing: the host supplies each command word to
`issue` (10_state.md R29), so the word is put before the operations that the host has still to apply (log 9). -/
def State.withFetchWord (s : State) (nbits w : Nat) : State := queueWordFirst nbits w s

end Sys2Proof.Machine
end

