-- ==== Sys2Proof/WellFormed.lean ====
section
/-!
DEFINITION. What is well formed. Every term of Instr is: its operands have the widths of their fields (spec
30_encoding.md R66). What can be ill-formed is a command word, and a line of assembler, whose operands are numerals of any
size (R69, R70).
-/

namespace Sys2Proof

/-! ### Command words -/

/-- A word is well formed when it selects a row of the opcode map (R62). -/
def wordWf (w : Word) : Bool := Mnemonic.rows.any (fun m => m.selectedBy w)

/-! ### Lines of assembler -/

/-- "a decimal number or a `0x` hexadecimal number" (R69), most significant digit first. -/
inductive Numeral where
  | dec (digits : List (Fin 10))
  | hex (digits : List (Fin 16))
deriving DecidableEq, Repr

/-- The number that a list of digits spells in a base, the most significant digit first. -/
def digitsValue (base : Nat) (digits : List Nat) : Nat := digits.foldl (fun v d => base * v + d) 0

/-- The number a numeral spells. -/
def Numeral.value : Numeral → Nat
  | .dec ds => digitsValue 10 (ds.map Fin.val)
  | .hex ds => digitsValue 16 (ds.map Fin.val)

/-- A numeral has at least one digit. -/
def Numeral.wf : Numeral → Bool
  | .dec ds => !ds.isEmpty
  | .hex ds => !ds.isEmpty

/-- One line of assembler: a command (R69) or a pseudo-instruction (R70), its text already split into mnemonic and
operands (log 13). -/
inductive AsmLine where
  /-- A mnemonic of R62 and, for forms B and H, one operand (R69). -/
  | command (m : Mnemonic) (operand : Option Numeral)
  /-- `CRC16 b0, ..., bk`, possibly with no bytes (R70). -/
  | crc16 (bytes : List Numeral)
  /-- `REQUEST s, f, a, c` (R70). -/
  | request (s f a c : Numeral)
  /-- `CHECK r0, ..., r(n-1)` (R70). -/
  | check (response : List Numeral)
deriving DecidableEq, Repr

/-- An operand fits a byte: 0 to 255 (R69). -/
def Numeral.fitsByte (n : Numeral) : Bool := n.wf && decide (n.value ≤ 255)

/-- An operand fits a halfword: 0 to 65535 (R69). -/
def Numeral.fitsHalf (n : Numeral) : Bool := n.wf && decide (n.value ≤ 65535)

/-- The operand of a line fits the form of its mnemonic: none for N, a byte for B, a halfword for H (R69). -/
def Form.accepts : Form → Option Numeral → Bool
  | .N, none => true
  | .B, some n => n.fitsByte
  | .H, some n => n.fitsHalf
  | .N, some _ => false
  | .B, none => false
  | .H, none => false

/-- A line that the assembler accepts: every operand fits (R69), and a CHECK has at least two bytes (R70). -/
def AsmLine.wf : AsmLine → Bool
  | .command m operand => m.form.accepts operand
  | .crc16 bytes => bytes.all Numeral.fitsByte
  | .request s f a c => s.fitsByte && f.fitsByte && a.fitsHalf && c.fitsHalf
  | .check response => decide (2 ≤ response.length) && response.all Numeral.fitsByte

end Sys2Proof
end

