-- ==== Sys2Proof/Machine/Assembler.lean ====
section
/-!
DEFINITION. The assembler and its pseudo-instructions (spec 30_encoding.md R69, R70).
-/

namespace Sys2Proof.Machine

/-! ### The macros on bytes and halfwords -/

/-- `CRC16 b0, ..., bk` (R70): the block's form of `compute_crc16` (40_crc.md R86). -/
def crc16Macro (data : List Byte) : List Instr := .crcInit :: (data.map .crcFeed ++ [.crcRead])

/-- `REQUEST s, f, a, c` (R70): the block's form of `build_request` (41_frame.md R106). -/
def requestMacro (s f : Byte) (a c : Half) : List Instr := [.setSlave s, .setFunc f, .setCount c, .build a]

/-- `CHECK r0, ..., r(n-1)` for n at least 2 (R70). -/
def checkMacro (r : List Byte) : List Instr :=
  .crcInit :: ((payloadOf r).map .crcFeed ++ [.crcCmp (trailerOf r)])

/-! ### Lines -/

/-- The byte a numeral spells, for a numeral that fits one. -/
def numeralByte (n : Numeral) : Byte := BitVec.ofNat 8 n.value

/-- The halfword a numeral spells, for a numeral that fits one. -/
def numeralHalf (n : Numeral) : Half := BitVec.ofNat 16 n.value

/-- The operand of a line as the 16 bits of IMM; 0 where it has none. -/
def operandImm : Option Numeral → Half
  | none => 0
  | some n => numeralHalf n

/-- The commands that a line the assembler accepts stands for (R69, R70). -/
def lineCommands : AsmLine → List Instr
  | .command m operand => [m.command (operandImm operand)]
  | .crc16 bytes => crc16Macro (bytes.map numeralByte)
  | .request s f a c => requestMacro (numeralByte s) (numeralByte f) (numeralHalf a) (numeralHalf c)
  | .check response => checkMacro (response.map numeralByte)

/-- The words of a line; none where the assembler refuses it rather than truncate (R69, R70). -/
def assemble (line : AsmLine) : Option (List Word) :=
  if line.wf then some ((lineCommands line).map encode) else none

end Sys2Proof.Machine
end

