-- ==== Sys2Proof/Machine/AsmText.lean ====
section
/-!
DEFINITION. The text of a line of assembler (spec 30_encoding.md R69, R70): a mnemonic, then its operands, decimal or `0x` hexadecimal
numbers, those of a pseudo-instruction separated by commas. What the spec leaves to the writer of an assembler (spaces between the
parts, capital or small hexadecimal digits) is fixed here as log 13 says.
-/

namespace Sys2Proof.Machine

/-- The mnemonics as R62 spells them. -/
def mnemonicText : Mnemonic → List Char
  | .nop => ['N', 'O', 'P']
  | .crcInit => ['C', 'R', 'C', '_', 'I', 'N', 'I', 'T']
  | .crcFeed => ['C', 'R', 'C', '_', 'F', 'E', 'E', 'D']
  | .crcRead => ['C', 'R', 'C', '_', 'R', 'E', 'A', 'D']
  | .crcCmp => ['C', 'R', 'C', '_', 'C', 'M', 'P']
  | .setSlave => ['S', 'E', 'T', '_', 'S', 'L', 'A', 'V', 'E']
  | .setFunc => ['S', 'E', 'T', '_', 'F', 'U', 'N', 'C']
  | .setCount => ['S', 'E', 'T', '_', 'C', 'O', 'U', 'N', 'T']
  | .build => ['B', 'U', 'I', 'L', 'D']

/-- The part read so far, as a token of its own if there is one. -/
def endToken (reversed : List Char) : List (List Char) :=
  if reversed.isEmpty then [] else [reversed.reverse]

/-- Splits a text into its tokens: spaces separate, and a comma is a token of its own. -/
def tokensFrom (reversed : List Char) : List Char → List (List Char)
  | [] => endToken reversed
  | c :: cs =>
    if c = ' ' then endToken reversed ++ tokensFrom [] cs
    else if c = ',' then endToken reversed ++ [','] :: tokensFrom [] cs
    else tokensFrom (c :: reversed) cs

/-- The value of a decimal digit. -/
def decDigit (c : Char) : Option (Fin 10) :=
  if h : 48 ≤ c.toNat ∧ c.toNat ≤ 57 then some ⟨c.toNat - 48, by omega⟩ else none

/-- The value of a hexadecimal digit. -/
def hexDigit (c : Char) : Option (Fin 16) :=
  if h : 48 ≤ c.toNat ∧ c.toNat ≤ 57 then some ⟨c.toNat - 48, by omega⟩
  else if h : 65 ≤ c.toNat ∧ c.toNat ≤ 70 then some ⟨c.toNat - 55, by omega⟩
  else if h : 97 ≤ c.toNat ∧ c.toNat ≤ 102 then some ⟨c.toNat - 87, by omega⟩
  else none

/-- All the values, if every character has one. -/
def allSome {α : Type} (value : Char → Option α) : List Char → Option (List α)
  | [] => some []
  | c :: cs =>
    match value c, allSome value cs with
    | some d, some ds => some (d :: ds)
    | _, _ => none

/-- "a decimal number or a `0x` hexadecimal number" (R69). -/
def parseNumeral : List Char → Option Numeral
  | '0' :: 'x' :: digits => (allSome hexDigit digits).map .hex
  | digits => (allSome decDigit digits).map .dec

/-- The operands after the first one, each behind a comma. -/
def parseMoreOperands : List (List Char) → Option (List Numeral)
  | [] => some []
  | [','] :: token :: rest =>
    match parseNumeral token, parseMoreOperands rest with
    | some n, some ns => some (n :: ns)
    | _, _ => none
  | _ => none

/-- Operands separated by commas, possibly none (R70). -/
def parseOperands : List (List Char) → Option (List Numeral)
  | [] => some []
  | token :: rest =>
    match parseNumeral token, parseMoreOperands rest with
    | some n, some ns => some (n :: ns)
    | _, _ => none

/-- The line that a name with its operands spells. -/
def lineOf (name : List Char) (operands : List Numeral) : Option AsmLine :=
  if name = ['C', 'R', 'C', '1', '6'] then some (.crc16 operands)
  else if name = ['C', 'H', 'E', 'C', 'K'] then some (.check operands)
  else if name = ['R', 'E', 'Q', 'U', 'E', 'S', 'T'] then
    match operands with
    | [s, f, a, c] => some (.request s f a c)
    | _ => none
  else
    match Mnemonic.rows.find? (fun m => mnemonicText m == name), operands with
    | some m, [] => some (.command m none)
    | some m, [n] => some (.command m (some n))
    | _, _ => none

/-- The line that a text spells; none where it spells no line. -/
def parseLine (text : List Char) : Option AsmLine :=
  match tokensFrom [] text with
  | [] => none
  | name :: rest => (parseOperands rest).bind (lineOf name)

/-- The words of the text of a line; none where the assembler refuses it (R69, R70). -/
def assembleText (text : List Char) : Option (List Word) := (parseLine text).bind assemble

end Sys2Proof.Machine
end

