-- ==== Sys2Proof/Machine/Issue.lean ====
section
/-!
DEFINITION. The step function of the spec, `issue : Config -> State -> Word32 -> State` (spec 00_scope.md R14), for every
configuration: with `P_NULL_CRC_SKIP` true it is the original repository's block (41_frame.md R104). Under Config.taken it is what
the machine does with an issued word.
-/

namespace Sys2Proof.Machine

/-- The rule of a command, under a configuration (R65). -/
def perform (c : Config) (i : Instr) (s : State) : State :=
  match i with
  | .nop => nopEffect s
  | .crcInit => crcInitEffect s
  | .crcFeed b => crcFeedEffect b s
  | .crcRead => crcReadEffect s
  | .crcCmp h => crcCmpEffect h s
  | .setSlave b => setSlaveEffect b s
  | .setFunc b => setFuncEffect b s
  | .setCount h => setCountEffect h s
  | .build a => buildEffect c a s

/-- `issue(W)` under a configuration (R14, R65): total on every word and every state (R15). -/
def issue (c : Config) (s : State) (w : Word) : State :=
  match decode w with
  | .ok i => perform c i s
  | .error e => raiseError e s

/-- The host issues words one after another. -/
def issueAll (c : Config) (s : State) (ws : List Word) : State := ws.foldl (issue c) s

end Sys2Proof.Machine
end

