-- ==== Sys2Proof/Machine/Response.lean ====
section
/-!
DEFINITION. The response check as a procedure of the host over the block (spec 41_frame.md R107 to R109), and its equivalent form by
the residue (40_crc.md R92). Each answers with the result and the state of the block afterwards.
-/

namespace Sys2Proof.Machine

/-- The results of the check (R107): they are the host's, and write nothing to ERR (60_exceptions.md R135). -/
inductive CheckResult where
  /-- `Ok(payload)` (R109). -/
  | ok (payload : List Byte)
  /-- `ShapeError`, also `ResponseTooShort` (R108). -/
  | shapeError
  /-- `CrcError`, also `ResponseCrcMismatch` (R109). -/
  | crcError
deriving DecidableEq, Repr

/-- The host feeds bytes in order. -/
def feedAll (c : Config) (s : State) (bytes : List Byte) : State :=
  issueAll c s (bytes.map (fun b => encode (.crcFeed b)))

/-- `validate_response(r)` (R107). The `expected frame-shape` argument of the source has no meaning (R108, U11). -/
def validateResponse (c : Config) (s : State) (r : List Byte) : CheckResult × State :=
  if r.length < 2 then (.shapeError, s)
  else
    let fed := feedAll c (issue c s (encode .crcInit)) (payloadOf r)
    let compared := issue c fed (encode (.crcCmp (trailerOf r)))
    (if (readPort compared 0x00).getLsbD 2 then .ok (payloadOf r) else .crcError, compared)

/-- The equivalent check that "feeds all n bytes and tests `read(0x02) = 0x0000`" (R107, R92). -/
def validateByResidue (c : Config) (s : State) (r : List Byte) : CheckResult × State :=
  if r.length < 2 then (.shapeError, s)
  else
    let fed := feedAll c (issue c s (encode .crcInit)) r
    (if readPort fed 0x02 = 0 then .ok (payloadOf r) else .crcError, fed)

/-- The host reads the eight frame cells in order (20_memory.md R42). -/
def readFrame (s : State) : List Byte :=
  [0x10, 0x11, 0x12, 0x13, 0x14, 0x15, 0x16, 0x17].map (fun idx : Byte => loByte (readPort s idx))

end Sys2Proof.Machine
end

