-- ==== Sys2Proof/Safety.lean ====
section
/-!
DEFINITION. What claims about the block speak of: the host's next operation, the effect of a word that raises an error, what counts
as a safe run, and the invariants of the block's record.
-/

namespace Sys2Proof.Machine

/-- The state in which the host applies an operation next and goes on with what it had still to apply. -/
def hostApplies (op : HostOp) (s : State) : State := setHostOps (op :: s.hostOps) s

/-- The next state of an outcome, if it is one. -/
def nextOf : Host.Outcome State Fault Refusal → Option State
  | .next s => some s
  | .fault _ => none
  | .refused _ => none

/-- The host's next operation is reset. -/
def Resets (s : State) : Prop := ∃ rest, s.hostOps = .reset :: rest

/-- The host's next operation issues a word that spells the command. -/
def Issues (s : State) (i : Instr) : Prop := ∃ w rest, s.hostOps = .issue w :: rest ∧ decode w = .ok i

/-- The host's next operation issues a word that spells no command. -/
def IssuesNoCommand (s : State) : Prop := ∃ w rest e, s.hostOps = .issue w :: rest ∧ decode w = .error e

/-- Issuing the word raises the error and has no other effect, in every state (60_exceptions.md R131, R132). -/
def RaisesOnly (w : Word) (code : ErrCode) : Prop :=
  ∀ s : State, step (hostApplies (.issue w) s) =
    .next { s with err := if s.err = .noError then code else s.err }

/-- k steps of the machine, as the host's interface runs them. -/
def runSteps (k : Nat) (s : State) : Host.Outcome State Fault Refusal := Host.Core.run Sys2Proof.core k s

/-- A safe run of k steps: the machine answers a next state each time (60_exceptions.md R131, R134). -/
def RunsSafely (k : Nat) (s : State) : Prop := ∃ t, runSteps k s = .next t

/-- A frame marked valid carries the CRC of its own first six bytes (30_encoding.md R67, 10_state.md R27). -/
def FrameSealed (s : State) : Prop :=
  s.framev = true → frameTrailer s.frame = crc16 (s.frame.toList.take 6)

/-- "With `P_NULL_CRC_SKIP = false` no BUILD is ever skipped, so `NULLCRC` stays 0" (10_state.md R27). -/
def NothingSkipped (s : State) : Prop := s.nullcrc = false

/-- CRC_OUT and FRAME keep the contents drawn at the last reset until the command that first writes them
(20_memory.md R44, 93_implementation_defined.md U1, U2). -/
def UnwrittenKeepsDraw (s : State) : Prop :=
  ∃ n, s.draws = n + 1 ∧ (s.outv = false → s.crcOut = Config.crcOutDraw n) ∧
    (s.framev = false → s.frame = Vector.ofFn (Config.frameDraw n))

/-- The invariant of the block's record. -/
def BlockInv (s : State) : Prop := FrameSealed s ∧ NothingSkipped s ∧ UnwrittenKeepsDraw s

/-- The bytes that a sequence of issued words feeds to the CRC engine, in order. -/
def fedBytes (ws : List Word) : List Byte :=
  ws.filterMap fun w =>
    match decode w with
    | .ok (.crcFeed b) => some b
    | _ => none

end Sys2Proof.Machine

namespace Sys2Proof

/-- A command of the CRC engine (40_crc.md section 2). -/
def Instr.ofCrcEngine : Instr → Bool
  | .crcInit | .crcFeed _ | .crcRead | .crcCmp _ => true
  | .nop | .setSlave _ | .setFunc _ | .setCount _ | .build _ => false

/-- A command of the request frame encoder (41_frame.md section 1). -/
def Instr.ofFrameEncoder : Instr → Bool
  | .setSlave _ | .setFunc _ | .setCount _ | .build _ => true
  | .nop | .crcInit | .crcFeed _ | .crcRead | .crcCmp _ => false

end Sys2Proof
end

