-- ==== Sys2Proof/Certificates/Slice0/Obligations.lean ====
section
/-!
DEFINITION. The statements for the provers. `step (hostApplies op s)` is the machine's answer to the host applying `op` at the
state s: the queue `hostOps`, what an empty queue does and the list `answers` of the values returned to the host are the model's
picture of the host (log 1, 2, 3). A statement about a free value (Config.crcOutDraw, Config.frameDraw) holds for every value it may
have.
-/

open Sys2Proof Sys2Proof.Machine

/-! ### The command word -/

/-- No bit of an encoding is dropped: decoding an encoded command gives it back, at every operand (30_encoding.md sections 1, 2, 4). -/
def Obligations.DecodeOfEncodeIsTheCommand : Prop :=
  ∀ i : Instr, decode (encode i) = .ok i

/-- Each word has at most one meaning and each command one word: a word that decodes is the encoding of its command. -/
def Obligations.DecodedWordIsTheEncodingOfItsCommand : Prop :=
  ∀ (w : Word) (i : Instr), decode w = .ok i → encode i = w

/-- R62: the opcode map, row by row with its match, its mask and its operand bits (R66), in numbers written out from the
table. -/
def Obligations.OpcodeMapRowByRow : Prop :=
  ∀ w : Word,
    (decode w = .ok .nop ↔ w &&& 0xFFFFFFFF#32 = 0x00000000#32) ∧
    (decode w = .ok .crcInit ↔ w &&& 0xFFFFFFFF#32 = 0x01000000#32) ∧
    (∀ b, decode w = .ok (.crcFeed b) ↔ w &&& 0xFFFFFF00#32 = 0x02000000#32 ∧ b = w.extractLsb' 0 8) ∧
    (decode w = .ok .crcRead ↔ w &&& 0xFFFFFFFF#32 = 0x03000000#32) ∧
    (∀ h, decode w = .ok (.crcCmp h) ↔ w &&& 0xFFFF0000#32 = 0x04000000#32 ∧ h = w.extractLsb' 0 16) ∧
    (∀ b, decode w = .ok (.setSlave b) ↔ w &&& 0xFFFFFF00#32 = 0x10000000#32 ∧ b = w.extractLsb' 0 8) ∧
    (∀ b, decode w = .ok (.setFunc b) ↔ w &&& 0xFFFFFF00#32 = 0x11000000#32 ∧ b = w.extractLsb' 0 8) ∧
    (∀ h, decode w = .ok (.setCount h) ↔ w &&& 0xFFFF0000#32 = 0x12000000#32 ∧ h = w.extractLsb' 0 16) ∧
    (∀ a, decode w = .ok (.build a) ↔ w &&& 0xFFFF0000#32 = 0x13000000#32 ∧ a = w.extractLsb' 0 16)

/-- No word selects two rows of the opcode map, and a word decodes exactly when it selects one. -/
def Obligations.DecodesExactlyWhenOneRowIsSelected : Prop :=
  (∀ (w : Word) (m n : Mnemonic), m.selectedBy w = true → n.selectedBy w = true → m = n) ∧
  (∀ w : Word, (∃ i, decode w = .ok i) ↔ wordWf w = true)

/-- R63: every unassigned opcode raises ILLEGAL_OP and nothing else, whatever the other bits. -/
def Obligations.UnassignedOpcodeRaisesIllegalOp : Prop :=
  ∀ w : Word,
    (0x05 ≤ (opField w).toNat ∧ (opField w).toNat ≤ 0x0F) ∨ 0x14 ≤ (opField w).toNat →
      decode w = .error .illegalOp ∧ RaisesOnly w .illegalOp

/-- R64: a word of an assigned opcode with a reserved bit set raises RESERVED_NZ and has none of its command's effects. -/
def Obligations.ReservedBitsRaiseReservedNz : Prop :=
  (∀ (w : Word) (m : Mnemonic), opField w = m.op → w &&& m.mask ≠ m.pattern →
    decode w = .error .reservedNz ∧ RaisesOnly w .reservedNz) ∧
  RaisesOnly 0x00000001 .reservedNz ∧ RaisesOnly 0x02000100 .reservedNz

/-- R130: the block raises exactly two errors, on exactly these words, and records the code only. -/
def Obligations.BlockRaisesExactlyTwoErrors : Prop :=
  (∀ w : Word,
    (decode w = .error .illegalOp ↔
      (0x05 ≤ (opField w).toNat ∧ (opField w).toNat ≤ 0x0F) ∨ 0x14 ≤ (opField w).toNat) ∧
    (decode w = .error .reservedNz ↔
      (opField w ∈ [0x00#8, 0x01#8, 0x03#8] ∧ w.extractLsb' 0 24 ≠ 0) ∨
      (opField w ∈ [0x02#8, 0x10#8, 0x11#8] ∧ w.extractLsb' 8 16 ≠ 0) ∨
      (opField w ∈ [0x04#8, 0x12#8, 0x13#8] ∧ w.extractLsb' 16 8 ≠ 0)) ∧
    (decode w = .error .illegalOp → RaisesOnly w .illegalOp) ∧
    (decode w = .error .reservedNz → RaisesOnly w .reservedNz)) ∧
  ErrCode.code .noError = 0 ∧ ErrCode.code .illegalOp = 1 ∧ ErrCode.code .reservedNz = 2 ∧
  (∀ e : ErrCode, e.code ≠ 3)

/-- A few words written out bit by bit from the encodings of R87 to R103 and R120 decode to their commands. -/
def Obligations.SampleWordsDecode : Prop :=
  decode 0b00000000000000000000000000000000#32 = .ok .nop ∧
  decode 0b00000001000000000000000000000000#32 = .ok .crcInit ∧
  decode 0b00000010000000000000000010110011#32 = .ok (.crcFeed 0xB3) ∧
  decode 0b00000100000000001011001111001011#32 = .ok (.crcCmp 0xB3CB) ∧
  decode 0b00010000000000000000000000010001#32 = .ok (.setSlave 0x11) ∧
  decode 0b00010010000000000000000001111101#32 = .ok (.setCount 125) ∧
  decode 0b00010011000000000000101110111000#32 = .ok (.build 3000)

/-! ### Errors -/

/-- R131: an error has no effect other than that on ERR, and the block goes on: whatever ERR holds, a later command is performed
normally. -/
def Obligations.ErrorHasNoOtherEffectAndBlockGoesOn : Prop :=
  (∀ (w : Word) (e : CmdError) (s : State), decode w = .error e →
    step (hostApplies (.issue w) s) =
      .next { s with err := if s.err = .noError then errCodeOf e else s.err }) ∧
  (∀ (i : Instr) (s : State) (kept : ErrCode),
    ∃ t, step (hostApplies (.issue (encode i)) s) = .next t ∧
      step (hostApplies (.issue (encode i)) { s with err := kept }) = .next { t with err := kept })

/-- R132: ERR keeps the first error, only reset clears it, and STATUS bit 4 reads 1 meanwhile. -/
def Obligations.FirstErrorIsKeptUntilReset : Prop :=
  (∀ (w : Word) (e : CmdError) (s : State), decode w = .error e → s.err = .noError →
    step (hostApplies (.issue w) s) = .next { s with err := errCodeOf e }) ∧
  (∀ (w : Word) (e : CmdError) (s : State), decode w = .error e → s.err ≠ .noError →
    step (hostApplies (.issue w) s) = .next s) ∧
  (∀ (op : HostOp) (s : State), op ≠ .reset → s.err ≠ .noError →
    ∃ t, step (hostApplies op s) = .next t ∧ t.err = s.err ∧ (readPort t 0x00).getLsbD 4 = true) ∧
  (∀ s : State, ∃ t, step (hostApplies .reset s) = .next t ∧ t.err = .noError ∧ (readPort t 0x00).getLsbD 4 = false)

/-- R134: every legal command completes, for every operand and every state, and raises no error, under either value of
P_NULL_CRC_SKIP; a CRC_CMP that does not match is a result. -/
def Obligations.NoLegalCommandFails : Prop :=
  (∀ (i : Instr) (s : State),
    (∃ t, exec i s = .next t ∧ step (hostApplies (.issue (encode i)) s) = .next t ∧ t.err = s.err) ∧
    (∀ c : Config, (issue c s (encode i)).err = s.err)) ∧
  (∀ (h : Half) (s : State), swap16 s.acc ≠ h → exec (.crcCmp h) s = .next { s with matched := false })

/-! ### Reset and the state -/

/-- R150: reset sets every field of the block; what CRC_OUT and FRAME hold after it is unspecified (the next statement says how the model
draws it); the read port shows the stated values; a configuration's parameters are the values of SLAVE, FUNC and COUNT. -/
def Obligations.ResetSetsEveryField : Prop :=
  (∀ s : State, ∃ t, step (hostApplies .reset s) = .next t ∧
    t = { s with
      acc := 0xFFFF, crcOut := t.crcOut, slave := 0x01, func := 0x04, count := 0x0001, frame := t.frame,
      outv := false, framev := false, matched := false, nullcrc := false, err := .noError, draws := t.draws } ∧
    readPort t 0x00 = 0x0000 ∧ readPort t 0x01 = 0x0000 ∧ readPort t 0x02 = 0xFFFF ∧
    readPort t 0x04 = 0x0001 ∧ readPort t 0x05 = 0x0004 ∧ readPort t 0x06 = 0x0001) ∧
  (∀ (c : Config) (s : State), (hostReset c s).slave = c.resetSlave ∧ (hostReset c s).func = c.resetFunc ∧
    (hostReset c s).count = c.resetCount)

/-- The model's choice (log 4, 5, 6): a reset takes the next draw of the free values for CRC_OUT and for each FRAME cell, and moves the
counter of draws on, so that no two resets of a run share a draw. -/
def Obligations.ResetDrawsTheUnspecifiedFields : Prop :=
  ∀ s : State, ∃ t, step (hostApplies .reset s) = .next t ∧
    t.crcOut = Config.crcOutDraw s.draws ∧ readPort t 0x03 = Config.crcOutDraw s.draws ∧
    (∀ i : Fin 8, t.frame[i] = Config.frameDraw s.draws i ∧
      readPort t (0x10#8 + BitVec.ofNat 8 i.val) = (Config.frameDraw s.draws i).setWidth 16) ∧
    t.draws = s.draws + 1

/-- R151: a second reset gives the same state but for the unspecified fields; the counter of draws is the model's (log 6). -/
def Obligations.ResetTwiceDiffersOnlyInTheDraws : Prop :=
  ∀ s : State, ∃ t u, step (hostApplies .reset s) = .next t ∧ step (hostApplies .reset t) = .next u ∧
    u = { t with crcOut := u.crcOut, frame := u.frame, draws := u.draws }

/-- R152 with R150: a run starts at the reset state; the host has applied nothing yet (log 1, 3), and the counter of draws stands at 1
(log 6). -/
def Obligations.RunStartsAtTheResetState : Prop :=
  State.reset.acc = 0xFFFF ∧ State.reset.slave = 0x01 ∧ State.reset.func = 0x04 ∧ State.reset.count = 0x0001 ∧
  State.reset.outv = false ∧ State.reset.framev = false ∧ State.reset.matched = false ∧ State.reset.nullcrc = false ∧
  State.reset.err = .noError ∧ State.reset.hostOps = [] ∧ State.reset.answers = [] ∧ State.reset.draws = 1

/-- The invariant of the block's record holds at reset. -/
def Obligations.BlockInvariantHoldsAtReset : Prop := BlockInv State.reset

/-- Every step keeps the invariant of the block's record: a valid frame carries its own CRC, nothing is ever skipped, and what no
command has written still holds what the last reset drew. -/
def Obligations.StepKeepsBlockInvariant : Prop :=
  ∀ s t : State, BlockInv s → step s = .next t → BlockInv t

/-- Under any configuration, the original repository's too, an issued word keeps a valid frame sealed by its CRC, and never leaves
both FRAMEV and NULLCRC set where they were not. -/
def Obligations.NoConfigurationUnsealsAFrame : Prop :=
  ∀ (c : Config) (s : State) (w : Word),
    (FrameSealed s → FrameSealed (issue c s w)) ∧
    (¬(s.framev = true ∧ s.nullcrc = true) →
      ¬((issue c s w).framev = true ∧ (issue c s w).nullcrc = true))

/-- 10_state.md R30, R21 to R28: every register changes only by reset and by the commands named in its rule. -/
def Obligations.RegistersChangeOnlyByTheirCommands : Prop :=
  ∀ s t : State, step s = .next t →
    (t.acc ≠ s.acc → Resets s ∨ Issues s .crcInit ∨ ∃ b, Issues s (.crcFeed b)) ∧
    (t.crcOut ≠ s.crcOut → Resets s ∨ Issues s .crcRead) ∧
    (t.slave ≠ s.slave → Resets s ∨ ∃ b, Issues s (.setSlave b)) ∧
    (t.func ≠ s.func → Resets s ∨ ∃ b, Issues s (.setFunc b)) ∧
    (t.count ≠ s.count → Resets s ∨ ∃ h, Issues s (.setCount h)) ∧
    (t.frame ≠ s.frame → Resets s ∨ ∃ a, Issues s (.build a)) ∧
    (t.outv ≠ s.outv → Resets s ∨ Issues s .crcRead) ∧
    (t.framev ≠ s.framev → Resets s ∨ ∃ a, Issues s (.build a)) ∧
    (t.matched ≠ s.matched → Resets s ∨ ∃ h, Issues s (.crcCmp h)) ∧
    (t.nullcrc ≠ s.nullcrc → Resets s ∨ ∃ a, Issues s (.build a)) ∧
    (t.err ≠ s.err → Resets s ∨ IssuesNoCommand s)

/-- R27: the flags, who sets and clears each, their reset values and their places in STATUS, under any configuration. -/
def Obligations.FlagsFollowTheirTable : Prop :=
  (∀ (c : Config) (i : Instr) (s : State),
    ((issue c s (encode i)).outv = true ↔ s.outv = true ∨ i = .crcRead) ∧
    ((∀ h, i ≠ .crcCmp h) → (issue c s (encode i)).matched = s.matched) ∧
    ((∀ a, i ≠ .build a) →
      (issue c s (encode i)).framev = s.framev ∧ (issue c s (encode i)).nullcrc = s.nullcrc)) ∧
  (∀ (c : Config) (h : Half) (s : State),
    ((issue c s (encode (.crcCmp h))).matched = true ↔ swap16 s.acc = h)) ∧
  (∀ (c : Config) (a : Half) (s : State),
    if c.nullCrcSkip = true ∧ crc16 (requestBody s.slave s.func a s.count) = 0 then
      (issue c s (encode (.build a))).framev = false ∧ (issue c s (encode (.build a))).nullcrc = true
    else (issue c s (encode (.build a))).framev = true ∧ (issue c s (encode (.build a))).nullcrc = false) ∧
  (∀ (c : Config) (w : Word) (e : CmdError) (s : State), decode w = .error e →
    (issue c s w).outv = s.outv ∧ (issue c s w).framev = s.framev ∧ (issue c s w).matched = s.matched ∧
      (issue c s w).nullcrc = s.nullcrc) ∧
  (∀ (c : Config) (s : State), (hostReset c s).outv = false ∧ (hostReset c s).framev = false ∧
    (hostReset c s).matched = false ∧ (hostReset c s).nullcrc = false ∧ errf (hostReset c s) = false) ∧
  (∀ s : State, (readPort s 0x00).getLsbD 0 = s.outv ∧ (readPort s 0x00).getLsbD 1 = s.framev ∧
    (readPort s 0x00).getLsbD 2 = s.matched ∧ (readPort s 0x00).getLsbD 3 = s.nullcrc ∧
    ((readPort s 0x00).getLsbD 4 = true ↔ s.err ≠ .noError) ∧
    ∀ k, 5 ≤ k → (readPort s 0x00).getLsbD k = false)

/-! ### The step -/

/-- When the word the host issues next decodes to a command, the step is exec of that command at the state in which the host has
applied it. -/
def Obligations.StepRunsTheDecodedCommand : Prop :=
  (∀ (s : State) (w : Word) (rest : List HostOp) (i : Instr), s.hostOps = .issue w :: rest → decode w = .ok i →
    step s = exec i { s with hostOps := rest }) ∧
  (∀ (s : State) (w : Word) (i : Instr), decode w = .ok i → step (s.withFetchWord 32 w.toNat) = exec i s)

/-- The passive block keeps its state while the host applies nothing: the model's choice (log 2), from 60_exceptions.md R144. -/
def Obligations.StepWithNoHostOperationChangesNothing : Prop :=
  ∀ s : State, s.hostOps = [] → step s = .next s

/-- The block never stops: any number of steps from any state ends in a next state (R131, R134). -/
def Obligations.BlockNeverStops : Prop := ∀ (k : Nat) (s : State), RunsSafely k s

/-- R14, R65: what the machine does with an issued word is the spec's `issue` under the configuration the spec takes, for every word
and every state. -/
def Obligations.MachineStepIsIssue : Prop :=
  ∀ (s : State) (w : Word), step (hostApplies (.issue w) s) = .next (issue Config.taken s w)

/-- R50: the operations take effect in the host's order, each completely before the next: a read sees the effects of every earlier
operation and of no later one. -/
def Obligations.ReadSeesEarlierOperationsAndNoLaterOne : Prop :=
  ∀ (earlier later : List HostOp) (idx : Byte) (s : State), ∃ t : State,
    runSteps earlier.length { s with hostOps := earlier } = .next { t with hostOps := [] } ∧
    runSteps (earlier.length + 1) { s with hostOps := earlier ++ .read idx :: later } =
      .next { t with hostOps := later, answers := { idx := idx, value := readPort t idx } :: t.answers }

/-- R154: the whole effect of every command is there for the very next host operation, whatever that operation is; and R154's three
examples, with the values they show. -/
def Obligations.EffectsAreVisibleToTheNextOperation : Prop :=
  (∀ (s : State) (i : Instr) (op : HostOp) (later : List HostOp), ∃ t, exec i s = .next t ∧
    runSteps 2 { s with hostOps := .issue (encode i) :: op :: later } = step { t with hostOps := op :: later }) ∧
  (∀ (s : State) (b : Byte) (h a : Half),
    (∃ t, runSteps 2 { s with hostOps := [.issue (encode (.crcFeed b)), .read 0x02] } = .next t ∧
      t.answers = { idx := 0x02, value := crcByte s.acc b } :: s.answers) ∧
    (∃ t, runSteps 2 { s with hostOps := [.issue (encode (.setCount h)), .issue (encode (.build a))] } =
      .next t ∧ t.frame = requestFrame s.slave s.func a h) ∧
    (∃ t, runSteps 2 { s with hostOps := [.issue (encode (.crcFeed b)), .issue (encode (.crcCmp h))] } =
      .next t ∧ (t.matched = true ↔ swap16 (crcByte s.acc b) = h)))

/-! ### The read port -/

/-- R42: the read port map. -/
def Obligations.ReadPortFollowsItsMap : Prop :=
  ∀ s : State,
    readPort s 0x00 = (BitVec.ofBool (decide (s.err ≠ .noError)) ++ BitVec.ofBool s.nullcrc ++
      BitVec.ofBool s.matched ++ BitVec.ofBool s.framev ++ BitVec.ofBool s.outv).setWidth 16 ∧
    readPort s 0x01 = s.err.code.setWidth 16 ∧
    readPort s 0x02 = s.acc ∧ readPort s 0x03 = s.crcOut ∧
    readPort s 0x04 = s.slave.setWidth 16 ∧ readPort s 0x05 = s.func.setWidth 16 ∧ readPort s 0x06 = s.count ∧
    ∀ i : Fin 8, readPort s (0x10#8 + BitVec.ofNat 8 i.val) = (s.frame[i]).setWidth 16

/-- R43: an unmapped index reads 0x0000, with no side effect and no error. -/
def Obligations.UnmappedIndexReadsZero : Prop :=
  ∀ (s : State) (idx : Byte), (0x07 ≤ idx.toNat ∧ idx.toNat ≤ 0x0F) ∨ 0x18 ≤ idx.toNat →
    readPort s idx = 0 ∧
    step (hostApplies (.read idx) s) = .next { s with answers := { idx := idx, value := 0 } :: s.answers }

/-- R44: a read changes no field of the block and repeats; what no command has written reads as it did, until the command that
first writes it or a reset. -/
def Obligations.ReadsHaveNoSideEffectAndRepeat : Prop :=
  (∀ (s : State) (idx : Byte), ∃ t, step (hostApplies (.read idx) s) = .next t ∧
    t = { s with answers := { idx := idx, value := readPort s idx } :: s.answers } ∧
    ∀ idx' : Byte, readPort t idx' = readPort s idx') ∧
  (∀ s t : State, step s = .next t → ¬Resets s →
    (t.outv = false → readPort t 0x03 = readPort s 0x03) ∧
    (t.framev = false → ∀ i : Fin 8,
      readPort t (0x10#8 + BitVec.ofNat 8 i.val) = readPort s (0x10#8 + BitVec.ofNat 8 i.val)))

/-! ### The checksum as functions -/

/-- R80, R81: one shift iteration and one input byte. -/
def Obligations.CrcByteIsEightShiftIterations : Prop :=
  (∀ a : Half, a.getLsbD 0 = true → crcBit a = (a >>> 1) ^^^ 0xA001#16) ∧
  (∀ a : Half, a.getLsbD 0 = false → crcBit a = a >>> 1) ∧
  (∀ a : Half, (a >>> 1).getLsbD 15 = false) ∧
  (∀ (a : Half) (b : Byte),
    crcByte a b =
      crcBit (crcBit (crcBit (crcBit (crcBit (crcBit (crcBit (crcBit (a ^^^ b.setWidth 16)))))))) ∧
    hiByte (a ^^^ b.setWidth 16) = hiByte a ∧ loByte (a ^^^ b.setWidth 16) = loByte a ^^^ b)

/-- R82: the accumulator of a byte sequence, the first byte first. -/
def Obligations.AccumulatorTakesTheBytesInOrder : Prop :=
  crcAcc [] = 0xFFFF ∧ ∀ (data : List Byte) (b : Byte), crcAcc (data ++ [b]) = crcByte (crcAcc data) b

/-- R83, R84, R85: the swap, the CRC16 and its two wire bytes; the CRC of the empty sequence; a CRC of 0x0000 is a value as any other. -/
def Obligations.CrcIsTheSwappedAccumulator : Prop :=
  (∀ v : Half, swap16 v = v.extractLsb' 0 8 ++ v.extractLsb' 8 8 ∧ swap16 (swap16 v) = v) ∧
  (∀ data : List Byte, crc16 data = swap16 (crcAcc data) ∧
    hiByte (crc16 data) = loByte (crcAcc data) ∧ loByte (crc16 data) = hiByte (crcAcc data)) ∧
  crc16 [] = 0xFFFF ∧ crc16 [0xFF, 0xFF] = 0x0000

/-- The CRC of one byte is linear over GF(2) in the accumulator and the byte together (40_crc.md R93). -/
def Obligations.CrcByteIsLinear : Prop :=
  ∀ (a a' : Half) (b b' : Byte), crcByte (a ^^^ a') (b ^^^ b') = crcByte a b ^^^ crcByte a' b'

/-- No shift iteration and no byte loses information: bit 15 after an iteration is bit 0 before it, and each map is one-to-one
(40_crc.md R93). -/
def Obligations.CrcStepsAreOneToOne : Prop :=
  (∀ a : Half, (crcBit a).getLsbD 15 = a.getLsbD 0) ∧
  (∀ a a' : Half, crcBit a = crcBit a' → a = a') ∧
  (∀ (b : Byte) (a a' : Half), crcByte a b = crcByte a' b → a = a')

/-- The CRCs of two sequences of one length differ by a value that depends only on where they differ (40_crc.md R93). -/
def Obligations.CrcDifferenceDependsOnlyOnTheFlippedBits : Prop :=
  ∀ flips p q : List Byte, p.length = flips.length → q.length = flips.length →
    crc16 (List.zipWith (· ^^^ ·) p flips) ^^^ crc16 p = crc16 (List.zipWith (· ^^^ ·) q flips) ^^^ crc16 q

/-- Every single-bit change in a payload changes its CRC, and the response check reports it (40_crc.md R93, 90_conflicts.md C7). -/
def Obligations.SingleBitFlipIsAlwaysDetected : Prop :=
  ∀ (p : List Byte) (i k : Nat), i < p.length → k < 8 →
    crc16 (p.modify i (· ^^^ (1#8 <<< k))) ≠ crc16 p ∧
    ∀ (c : Config) (s : State),
      (validateResponse c s (p.modify i (· ^^^ (1#8 <<< k)) ++ bigEndian (crc16 p))).1 = .crcError

/-- R92: the residue law and its converse, with its reason, and the check by the residue gives the verdict of the check by
CRC_CMP. -/
def Obligations.ResidueIsZeroExactlyForAMatchingTrailer : Prop :=
  (∀ p : List Byte, crcAcc (withCrc p) = 0x0000) ∧
  (∀ r : List Byte, 2 ≤ r.length → (crcAcc r = 0x0000 ↔ crc16 (payloadOf r) = trailerOf r)) ∧
  (∀ (a : Half) (b c b' c' : Byte), crcByte (crcByte a b) c = crcByte (crcByte a b') c' → b = b' ∧ c = c') ∧
  (∀ (c : Config) (s : State) (r : List Byte), (validateByResidue c s r).1 = (validateResponse c s r).1)

/-! ### The commands of the CRC engine -/

/-- R87: CRC_INIT. -/
def Obligations.CrcInitStartsANewChecksum : Prop :=
  (∀ s : State, exec .crcInit s = .next { s with acc := 0xFFFF } ∧
    step (hostApplies (.issue 0x01000000) s) = .next { s with acc := 0xFFFF }) ∧
  (∀ w : Word, opField w = 0x01 → w.extractLsb' 0 24 ≠ 0 → RaisesOnly w .reservedNz)

/-- R88: CRC_FEED. -/
def Obligations.CrcFeedProcessesOneByte : Prop :=
  (∀ (s : State) (b : Byte), exec (.crcFeed b) s = .next { s with acc := crcByte s.acc b } ∧
    step (hostApplies (.issue (0x02000000#32 ||| b.setWidth 32)) s) = .next { s with acc := crcByte s.acc b }) ∧
  (∀ w : Word, opField w = 0x02 → w.extractLsb' 8 16 ≠ 0 → RaisesOnly w .reservedNz) ∧
  crcByte 0x0000 0x00 = 0x0000 ∧ crcByte 0x00FF 0xFF = 0x0000 ∧ crcByte 0xFFFF 0x01 = 0x807E

/-- R89: CRC_READ. -/
def Obligations.CrcReadLatchesTheSwappedAccumulator : Prop :=
  (∀ s : State,
    exec .crcRead s =
      .next { s with crcOut := s.acc.extractLsb' 0 8 ++ s.acc.extractLsb' 8 8, outv := true } ∧
    step (hostApplies (.issue 0x03000000) s) =
      .next { s with crcOut := s.acc.extractLsb' 0 8 ++ s.acc.extractLsb' 8 8, outv := true } ∧
    (s.acc = 0xFFFF → exec .crcRead s = .next { s with crcOut := 0xFFFF, outv := true }) ∧
    (s.acc = 0xCBB3 → exec .crcRead s = .next { s with crcOut := 0xB3CB, outv := true })) ∧
  crcAcc [0x01, 0x04, 0x0B, 0xB8, 0x00, 0x01] = 0xCBB3 ∧
  (∀ w : Word, opField w = 0x03 → w.extractLsb' 0 24 ≠ 0 → RaisesOnly w .reservedNz)

/-- R90: CRC_CMP. -/
def Obligations.CrcCmpComparesAllSixteenBits : Prop :=
  (∀ (s : State) (h : Half),
    exec (.crcCmp h) s =
      .next { s with matched := decide (s.acc.extractLsb' 0 8 ++ s.acc.extractLsb' 8 8 = h) } ∧
    step (hostApplies (.issue (0x04000000#32 ||| h.setWidth 32)) s) =
      .next { s with matched := decide (s.acc.extractLsb' 0 8 ++ s.acc.extractLsb' 8 8 = h) } ∧
    (s.acc = 0xFFFF → exec (.crcCmp h) s = .next { s with matched := decide (h = 0xFFFF) }) ∧
    (s.acc = 0xCBB3 → exec (.crcCmp 0xB3CB) s = .next { s with matched := true } ∧
      exec (.crcCmp 0xCBB3) s = .next { s with matched := false }) ∧
    exec (.crcCmp 0x0000) s = .next { s with matched := decide (s.acc = 0x0000) }) ∧
  crcAcc [0x01, 0x04, 0x0B, 0xB8, 0x00, 0x01] = 0xCBB3 ∧
  (∀ w : Word, opField w = 0x04 → w.extractLsb' 16 8 ≠ 0 → RaisesOnly w .reservedNz)

/-! ### The commands of the request frame encoder, and NOP -/

/-- R67: the eight bytes of a request frame, and the CRC over the first six. -/
def Obligations.RequestFrameHasEightStatedBytes : Prop :=
  (∀ (s f : Byte) (a c : Half),
    (requestFrame s f a c).toList =
      [s, f, a.extractLsb' 8 8, a.extractLsb' 0 8, c.extractLsb' 8 8, c.extractLsb' 0 8,
        loByte (crcAcc [s, f, hiByte a, loByte a, hiByte c, loByte c]),
        hiByte (crcAcc [s, f, hiByte a, loByte a, hiByte c, loByte c])] ∧
    frameTrailer (requestFrame s f a c) = crc16 ((requestFrame s f a c).toList.take 6)) ∧
  (requestFrame 1 4 4000 1).toList = [0x01, 0x04, 0x0F, 0xA0, 0x00, 0x01, 0x32, 0xFC]

/-- R100: SET_SLAVE. -/
def Obligations.SetSlaveWritesTheSlaveId : Prop :=
  (∀ (s : State) (b : Byte), exec (.setSlave b) s = .next { s with slave := b } ∧
    step (hostApplies (.issue (0x10000000#32 ||| b.setWidth 32)) s) = .next { s with slave := b } ∧
    ∀ a : Half, ∃ t, exec (.build a) { s with slave := b } = .next t ∧ t.frame[0] = b) ∧
  (∀ w : Word, opField w = 0x10 → w.extractLsb' 8 16 ≠ 0 → RaisesOnly w .reservedNz)

/-- R101: SET_FUNC. -/
def Obligations.SetFuncWritesTheFunctionCode : Prop :=
  (∀ (s : State) (b : Byte), exec (.setFunc b) s = .next { s with func := b } ∧
    step (hostApplies (.issue (0x11000000#32 ||| b.setWidth 32)) s) = .next { s with func := b } ∧
    ∀ a : Half, ∃ t, exec (.build a) { s with func := b } = .next t ∧ t.frame[1] = b) ∧
  (∀ w : Word, opField w = 0x11 → w.extractLsb' 8 16 ≠ 0 → RaisesOnly w .reservedNz)

/-- R102: SET_COUNT. -/
def Obligations.SetCountWritesTheRegisterCount : Prop :=
  (∀ (s : State) (h : Half), exec (.setCount h) s = .next { s with count := h } ∧
    step (hostApplies (.issue (0x12000000#32 ||| h.setWidth 32)) s) = .next { s with count := h } ∧
    ∀ a : Half, ∃ t, exec (.build a) { s with count := h } = .next t ∧ t.frame[4] ++ t.frame[5] = h) ∧
  (∀ w : Word, opField w = 0x12 → w.extractLsb' 16 8 ≠ 0 → RaisesOnly w .reservedNz)

/-- R103: BUILD with P_NULL_CRC_SKIP = false. -/
def Obligations.BuildWritesTheRequestFrame : Prop :=
  (∀ (s : State) (a : Half),
    exec (.build a) s =
      .next { s with frame := requestFrame s.slave s.func a s.count, framev := true, nullcrc := false } ∧
    step (hostApplies (.issue (0x13000000#32 ||| a.setWidth 32)) s) =
      .next { s with frame := requestFrame s.slave s.func a s.count, framev := true, nullcrc := false } ∧
    ∀ t, exec (.build a) s = .next t → exec (.build a) t = .next t) ∧
  (∀ w : Word, opField w = 0x13 → w.extractLsb' 16 8 ≠ 0 → RaisesOnly w .reservedNz) ∧
  (∀ a : Half, crc16 (requestBody 1 4 a 1) = 0x0000 ↔ a = 0xFEA0) ∧
  (requestFrame 1 4 0xFEA0 1).toList = [0x01, 0x04, 0xFE, 0xA0, 0x00, 0x01, 0x00, 0x00] ∧
  (requestFrame 1 4 3000 1).toList = [0x01, 0x04, 0x0B, 0xB8, 0x00, 0x01, 0xB3, 0xCB]

/-- R104: BUILD with P_NULL_CRC_SKIP = true. -/
def Obligations.BuildSkipsANullCrcWhenConfigured : Prop :=
  ∀ (c : Config) (s : State) (a : Half), c.nullCrcSkip = true →
    issue c s (encode (.build a)) =
      if crc16 (requestBody s.slave s.func a s.count) = 0x0000 then { s with framev := false, nullcrc := true }
      else { s with frame := requestFrame s.slave s.func a s.count, framev := true, nullcrc := false }

/-- R105: nothing is validated beyond bit width: every slave id, function code, address and count, 0 included, is encoded
unchanged. -/
def Obligations.EveryRequestIsEncodedUnchanged : Prop :=
  ∀ (s : State) (a : Half), ∃ t, exec (.build a) s = .next t ∧ t.framev = true ∧ t.err = s.err ∧
    t.frame[0] = s.slave ∧ t.frame[1] = s.func ∧ t.frame[2] ++ t.frame[3] = a ∧ t.frame[4] ++ t.frame[5] = s.count

/-- R106: `build_request` on the block: the three SET commands in any order, then BUILD, and later BUILDs without them. -/
def Obligations.RequestSequenceBuildsTheFrame : Prop :=
  ∀ (c : Config) (st : State) (s f : Byte) (cnt : Half) (sets : List Instr) (as : List Half) (a : Half),
    c.nullCrcSkip = false → sets.Perm [.setSlave s, .setFunc f, .setCount cnt] →
    (issueAll c st ((sets ++ as.map Instr.build ++ [Instr.build a]).map encode)).frame = requestFrame s f a cnt ∧
    (issueAll c st ((sets ++ as.map Instr.build ++ [Instr.build a]).map encode)).framev = true ∧
    issueAll c st ((requestMacro s f a cnt).map encode) =
      { st with
        slave := s, func := f, count := cnt, frame := requestFrame s f a cnt, framev := true, nullcrc := false }

/-- R120: NOP, the only command with no effect. -/
def Obligations.OnlyNopChangesNothing : Prop :=
  (∀ s : State, exec .nop s = .next s ∧ step (hostApplies (.issue 0x00000000) s) = .next s) ∧
  (∀ i : Instr, i ≠ .nop → ∃ s t : State, exec i s = .next t ∧ t ≠ s) ∧
  (∀ w : Word, opField w = 0x00 → w.extractLsb' 0 24 ≠ 0 → RaisesOnly w .reservedNz)

/-! ### Sequences -/

/-- R86: `compute_crc16` on the block: the machine, run over CRC_INIT, one CRC_FEED per byte and CRC_READ, leaves the checksum
of exactly those bytes and changes nothing else. -/
def Obligations.ChecksumSequenceComputesTheCrc : Prop :=
  ∀ (data : List Byte) (rest : List HostOp) (s : State),
    runSteps (data.length + 2)
        { s with hostOps := (crc16Macro data).map (fun i => .issue (encode i)) ++ rest } =
      .next { s with acc := crcAcc data, crcOut := crc16 data, outv := true, hostOps := rest }

/-- R86: after CRC_INIT the result depends only on the fed bytes, whatever other words, commands or errors, come in between. -/
def Obligations.ChecksumDependsOnlyOnTheFedBytes : Prop :=
  ∀ (c : Config) (s : State) (ws : List Word), (∀ w ∈ ws, decode w ≠ .ok .crcInit) →
    (issueAll c s (encode .crcInit :: ws)).acc = crcAcc (fedBytes ws) ∧
    (issueAll c s (encode .crcInit :: (ws ++ [encode .crcRead]))).crcOut = crc16 (fedBytes ws) ∧
    ∀ h : Half, ((issueAll c s (encode .crcInit :: (ws ++ [encode (.crcCmp h)]))).matched = true ↔
      crc16 (fedBytes ws) = h)

/-- The CRC engine and the frame encoder do not interact: a command of the one and a command of the other can change places
(70_reset_and_hazards.md R155). -/
def Obligations.CrcEngineAndFrameEncoderDoNotInteract : Prop :=
  ∀ (c : Config) (s : State) (i j : Instr), i.ofCrcEngine = true → j.ofFrameEncoder = true →
    issue c (issue c s (encode i)) (encode j) = issue c (issue c s (encode j)) (encode i)

/-! ### The response check -/

/-- R108, R109: the result of `validate_response` for every response, and the state it leaves. -/
def Obligations.ResponseCheckComparesTheTrailer : Prop :=
  (∀ (c : Config) (s : State) (r : List Byte), r.length < 2 → validateResponse c s r = (.shapeError, s)) ∧
  (∀ (c : Config) (s : State) (r : List Byte), 2 ≤ r.length →
    validateResponse c s r =
      (if crc16 (r.take (r.length - 2)) = trailerOf r then .ok (r.take (r.length - 2)) else .crcError,
        { s with
          acc := crcAcc (r.take (r.length - 2))
          matched := decide (crc16 (r.take (r.length - 2)) = trailerOf r) })) ∧
  (∀ (c : Config) (s : State) (hi lo : Byte),
    ((validateResponse c s [hi, lo]).1 = .ok [] ↔ hi = 0xFF ∧ lo = 0xFF) ∧
    ((validateResponse c s [hi, lo]).1 = .crcError ↔ ¬(hi = 0xFF ∧ lo = 0xFF)))

/-- R110: every sequence with its own CRC appended passes the check, and so does every frame that BUILD writes, read back. -/
def Obligations.OwnCrcAlwaysValidates : Prop :=
  (∀ (c : Config) (s : State) (p : List Byte), (validateResponse c s (withCrc p)).1 = .ok p) ∧
  (∀ (c : Config) (s : State) (a : Half), ∃ t, exec (.build a) s = .next t ∧
    (validateResponse c t (readFrame t)).1 =
      .ok [s.slave, s.func, hiByte a, loByte a, hiByte s.count, loByte s.count])

/-! ### The assembler -/

/-- R69: a line of one command is encoded as `(OP << 24) OR operand`, and a line whose operand does not fit is refused. That a numeral
has a digit, and how a text is split into its parts, is the model's reading (log 13). -/
def Obligations.AssemblerEncodesOrRefusesACommand : Prop :=
  (∀ m : Mnemonic, m.form = .N → assemble (.command m none) = some [m.op.setWidth 32 <<< 24]) ∧
  (∀ (m : Mnemonic) (n : Numeral), m.form = .N → assemble (.command m (some n)) = none) ∧
  (∀ m : Mnemonic, m.form ≠ .N → assemble (.command m none) = none) ∧
  (∀ (m : Mnemonic) (n : Numeral), n.wf = true → m.form = .B →
    assemble (.command m (some n)) =
      if n.value ≤ 255 then some [(m.op.setWidth 32 <<< 24) ||| BitVec.ofNat 32 n.value] else none) ∧
  (∀ (m : Mnemonic) (n : Numeral), n.wf = true → m.form = .H →
    assemble (.command m (some n)) =
      if n.value ≤ 65535 then some [(m.op.setWidth 32 <<< 24) ||| BitVec.ofNat 32 n.value] else none) ∧
  assembleText "CRC_FEED 0x01".toList = some [0x02000001] ∧
  assembleText "BUILD 3000".toList = some [0x13000BB8] ∧
  assembleText "CRC_CMP 0xB3CB".toList = some [0x0400B3CB] ∧
  assembleText "NOP".toList = some [0x00000000]

/-- R70: the exact expansions of the three pseudo-instructions. -/
def Obligations.PseudoInstructionsExpandExactly : Prop :=
  (∀ bs : List Numeral, (∀ b ∈ bs, b.fitsByte = true) →
    assemble (.crc16 bs) =
      some (0x01000000#32 :: (bs.map (fun b => 0x02000000#32 ||| BitVec.ofNat 32 b.value) ++ [0x03000000#32]))) ∧
  (∀ s f a c : Numeral, s.fitsByte = true → f.fitsByte = true → a.fitsHalf = true → c.fitsHalf = true →
    assemble (.request s f a c) =
      some [0x10000000#32 ||| BitVec.ofNat 32 s.value, 0x11000000#32 ||| BitVec.ofNat 32 f.value,
        0x12000000#32 ||| BitVec.ofNat 32 c.value, 0x13000000#32 ||| BitVec.ofNat 32 a.value]) ∧
  (∀ (rs : List Numeral) (hi lo : Numeral), (∀ r ∈ rs ++ [hi, lo], r.fitsByte = true) →
    assemble (.check (rs ++ [hi, lo])) =
      some (0x01000000#32 :: (rs.map (fun r => 0x02000000#32 ||| BitVec.ofNat 32 r.value) ++
        [0x04000000#32 ||| BitVec.ofNat 32 ((hi.value <<< 8) ||| lo.value)]))) ∧
  (∀ rs : List Numeral, rs.length < 2 → assemble (.check rs) = none)
end

