-- ==== Sys2Proof/Laws/Crc.lean ====
section
/-!
SUPPORT. The small laws of the checksum functions.
-/

namespace Sys2Proof.Machine

theorem crcBit_of_odd {a : Half} (h : a.getLsbD 0 = true) : crcBit a = (a >>> 1) ^^^ crcPoly := if_pos h

theorem crcBit_of_even {a : Half} (h : a.getLsbD 0 = false) : crcBit a = a >>> 1 := if_neg (by rw [h]; decide)

@[simp] theorem crcBits_zero (t : Half) : crcBits 0 t = t := rfl

@[simp] theorem crcBits_succ (n : Nat) (t : Half) : crcBits (n + 1) t = crcBits n (crcBit t) := rfl

theorem crcByte_eq (a : Half) (b : Byte) : crcByte a b = crcBits 8 (a ^^^ b.setWidth 16) := rfl

@[simp] theorem crcFrom_nil (a : Half) : crcFrom a [] = a := rfl

@[simp] theorem crcFrom_cons (a : Half) (b : Byte) (data : List Byte) :
    crcFrom a (b :: data) = crcFrom (crcByte a b) data := rfl

@[simp] theorem crcFrom_append (a : Half) (data more : List Byte) :
    crcFrom a (data ++ more) = crcFrom (crcFrom a data) more := List.foldl_append

theorem crcAcc_eq (data : List Byte) : crcAcc data = crcFrom crcInitial data := rfl

theorem crc16_eq (data : List Byte) : crc16 data = swap16 (crcAcc data) := rfl

end Sys2Proof.Machine
end

