-- ==== Sys2Proof/Laws/Decode.lean ====
section
/-!
SUPPORT. The fields of a command word, the rows of the opcode map, and what the decoder answers.
-/

namespace Sys2Proof

/-! ### Fields -/

theorem getLsbD_opField (w : Word) (k : Nat) : (opField w).getLsbD k = (decide (k < 8) && w.getLsbD (24 + k)) := by
  simp [opField]

theorem getLsbD_rsvField (w : Word) (k : Nat) :
    (rsvField w).getLsbD k = (decide (k < 8) && w.getLsbD (16 + k)) := by
  simp [rsvField]

theorem getLsbD_immField (w : Word) (k : Nat) : (immField w).getLsbD k = (decide (k < 16) && w.getLsbD k) := by
  simp [immField]

/-- A word is its three fields (R60). -/
theorem word_eq_iff {w v : Word} :
    w = v ↔ opField w = opField v ∧ rsvField w = rsvField v ∧ immField w = immField v := by
  refine ⟨fun h => by simp [h], fun ⟨hop, hrsv, himm⟩ => BitVec.eq_of_getLsbD_eq fun k hk => ?_⟩
  by_cases h16 : k < 16
  · simpa [immField, h16] using congrArg (·.getLsbD k) himm
  · by_cases h24 : k < 24
    · simpa [rsvField, show k - 16 < 8 by omega, show 16 + (k - 16) = k by omega] using congrArg (·.getLsbD (k - 16)) hrsv
    · simpa [opField, show k - 24 < 8 by omega, show 24 + (k - 24) = k by omega] using congrArg (·.getLsbD (k - 24)) hop

theorem opField_and (w v : Word) : opField (w &&& v) = opField w &&& opField v := by
  simp [opField, BitVec.extractLsb'_and]

theorem rsvField_and (w v : Word) : rsvField (w &&& v) = rsvField w &&& rsvField v := by
  simp [rsvField, BitVec.extractLsb'_and]

theorem immField_and (w v : Word) : immField (w &&& v) = immField w &&& immField v := by
  simp [immField, BitVec.extractLsb'_and]

/-- The bits of an encoded command: its operand below bit 16, zeros, its opcode from bit 24. -/
theorem getLsbD_encode (i : Instr) (k : Nat) :
    (encode i).getLsbD k =
      if k < 16 then i.imm.getLsbD k else decide (24 ≤ k) && i.mnemonic.op.getLsbD (k - 24) := by
  unfold encode
  generalize i.mnemonic.op = o
  generalize i.imm = m
  rw [BitVec.getLsbD_or, BitVec.getLsbD_shiftLeft, BitVec.getLsbD_setWidth, BitVec.getLsbD_setWidth]
  by_cases h : k < 16
  · simp [h, show k < 24 by omega, show k < 32 by omega]
  · rw [BitVec.getLsbD_of_ge m k (by omega)]
    by_cases h2 : k < 24
    · simp [h, h2]
    · by_cases h3 : k < 32
      · simp [h, h2, h3, show 24 ≤ k by omega]; omega
      · simp [h, h3]; intro; exact BitVec.getLsbD_of_ge o (k-24) (by omega)

@[simp] theorem opField_encode (i : Instr) : opField (encode i) = i.mnemonic.op := by
  refine BitVec.eq_of_getLsbD_eq fun k hk => ?_
  simp [opField, getLsbD_encode, hk, show ¬ 24 + k < 16 by omega]

@[simp] theorem rsvField_encode (i : Instr) : rsvField (encode i) = 0 := by
  refine BitVec.eq_of_getLsbD_eq fun k hk => ?_
  simp [rsvField, getLsbD_encode, hk, show ¬ 24 ≤ 16 + k by omega]

@[simp] theorem immField_encode (i : Instr) : immField (encode i) = i.imm := by
  refine BitVec.eq_of_getLsbD_eq fun k hk => ?_
  simp [immField, getLsbD_encode, hk]

/-! ### Rows -/

@[simp] theorem mem_rows (m : Mnemonic) : m ∈ Mnemonic.rows := by cases m <;> decide

@[simp] theorem rowOfOp_op (m : Mnemonic) : rowOfOp m.op = some m := by cases m <;> rfl

theorem op_of_rowOfOp {op : Byte} {m : Mnemonic} (h : rowOfOp op = some m) : m.op = op := by
  simpa using List.find?_some h

/-- The opcodes that no row has (R63). -/
theorem rowOfOp_eq_none_iff (op : Byte) :
    rowOfOp op = none ↔ (0x05 ≤ op.toNat ∧ op.toNat ≤ 0x0F) ∨ 0x14 ≤ op.toNat := by
  revert op; decide

@[simp] theorem mnemonic_command (m : Mnemonic) (imm : Half) : (m.command imm).mnemonic = m := by cases m <;> rfl

/-- A word selects a row when it has the row's opcode and zeros in the reserved bits of RSV and IMM (R61, R62). -/
theorem selectedBy_iff (m : Mnemonic) (w : Word) :
    m.selectedBy w = true ↔ opField w = m.op ∧ rsvField w = 0 ∧ immField w &&& immField m.mask = 0 := by
  rw [Mnemonic.selectedBy, beq_iff_eq, word_eq_iff, opField_and, rsvField_and, immField_and,
    show opField m.mask = BitVec.allOnes 8 by cases m <;> decide,
    show rsvField m.mask = BitVec.allOnes 8 by cases m <;> decide,
    show opField m.pattern = m.op by cases m <;> decide,
    show rsvField m.pattern = 0 by cases m <;> decide,
    show immField m.pattern = 0 by cases m <;> decide, BitVec.and_allOnes, BitVec.and_allOnes]

/-! ### The decoder -/

theorem decode_of_selectedBy {w : Word} {m : Mnemonic} (h : m.selectedBy w = true) :
    decode w = .ok (m.command (immField w)) := by
  simp [decode, ((selectedBy_iff m w).1 h).1, h]

/-- What a word that decodes is (R65). -/
theorem selectedBy_of_decode {w : Word} {i : Instr} (h : decode w = .ok i) :
    i.mnemonic.selectedBy w = true ∧ i = i.mnemonic.command (immField w) := by
  unfold decode at h
  split at h
  · cases h
  · split at h
    · cases h; rw [mnemonic_command]; exact ⟨by assumption, rfl⟩
    · cases h

/-- When a word raises ILLEGAL_OP (R63, R65). -/
theorem decode_eq_illegalOp_iff (w : Word) : decode w = .error .illegalOp ↔ rowOfOp (opField w) = none := by
  unfold decode
  split
  · simp [*]
  · rename_i m hm
    rw [hm]; split <;> simp

/-- When a word raises RESERVED_NZ (R64, R65). -/
theorem decode_eq_reservedNz_iff (w : Word) :
    decode w = .error .reservedNz ↔ ∃ m : Mnemonic, opField w = m.op ∧ m.selectedBy w = false := by
  unfold decode
  split
  · rename_i hn
    simp only [reduceCtorEq, Except.error.injEq, false_iff]
    rintro ⟨m, hm, -⟩
    rw [hm, rowOfOp_op] at hn
    cases hn
  · rename_i m hm
    have hop := op_of_rowOfOp hm
    split
    · rename_i hs
      simp only [reduceCtorEq, false_iff]
      rintro ⟨m', hm', hs'⟩
      rw [hm', rowOfOp_op] at hm
      cases hm
      rw [hs] at hs'
      cases hs'
    · rename_i hs
      exact ⟨fun _ => ⟨m, hop.symm, by simpa using hs⟩, fun _ => rfl⟩

end Sys2Proof
end

