-- ==== Sys2Proof/Laws/Operands.lean ====
section
/-!
SUPPORT. Laws of the two bytes of a 16-bit value.
-/

namespace Sys2Proof.Machine

theorem getLsbD_hiByte (v : Half) (k : Nat) : (hiByte v).getLsbD k = (decide (k < 8) && v.getLsbD (8 + k)) := by
  simp [hiByte]

theorem getLsbD_loByte (v : Half) (k : Nat) : (loByte v).getLsbD k = (decide (k < 8) && v.getLsbD k) := by
  simp [loByte]

/-- The bits of two bytes taken as one value: the second byte below, the first above. -/
theorem getLsbD_ofBytes (hi lo : Byte) (k : Nat) :
    (ofBytes hi lo).getLsbD k = if k < 8 then lo.getLsbD k else hi.getLsbD (k - 8) :=
  BitVec.getLsbD_append

@[simp] theorem hiByte_ofBytes (hi lo : Byte) : hiByte (ofBytes hi lo) = hi := by
  refine BitVec.eq_of_getLsbD_eq fun k hk => ?_
  simp only [getLsbD_hiByte, getLsbD_ofBytes, hk, show ¬ 8 + k < 8 by omega, decide_true, Bool.true_and, if_false,
    Nat.add_sub_cancel_left]

@[simp] theorem loByte_ofBytes (hi lo : Byte) : loByte (ofBytes hi lo) = lo := by
  refine BitVec.eq_of_getLsbD_eq fun k hk => ?_
  simp only [getLsbD_loByte, getLsbD_ofBytes, hk, decide_true, Bool.true_and, if_true]

@[simp] theorem ofBytes_hiByte_loByte (v : Half) : ofBytes (hiByte v) (loByte v) = v := by
  refine BitVec.eq_of_getLsbD_eq fun k hk => ?_
  rw [getLsbD_ofBytes]
  split
  · rw [getLsbD_loByte]
    simp [*]
  · rw [getLsbD_hiByte, show 8 + (k - 8) = k by omega]
    simp [show k - 8 < 8 by omega]

/-- A value is its two bytes. -/
theorem half_ext {v w : Half} (hhi : hiByte v = hiByte w) (hlo : loByte v = loByte w) : v = w := by
  rw [← ofBytes_hiByte_loByte v, hhi, hlo, ofBytes_hiByte_loByte]

@[simp] theorem hiByte_xor (v w : Half) : hiByte (v ^^^ w) = hiByte v ^^^ hiByte w := by
  simp [hiByte, BitVec.extractLsb'_xor]

@[simp] theorem loByte_xor (v w : Half) : loByte (v ^^^ w) = loByte v ^^^ loByte w := by
  simp [loByte, BitVec.extractLsb'_xor]

@[simp] theorem loByte_setWidth (b : Byte) : loByte (b.setWidth 16) = b := by
  refine BitVec.eq_of_getLsbD_eq fun k hk => ?_
  simp [loByte, hk]
  omega

@[simp] theorem hiByte_setWidth (b : Byte) : hiByte (b.setWidth 16) = 0 := by
  refine BitVec.eq_of_getLsbD_eq fun k hk => ?_
  simp [hiByte, hk]

@[simp] theorem hiByte_swap16 (v : Half) : hiByte (swap16 v) = loByte v := by simp [swap16]

@[simp] theorem loByte_swap16 (v : Half) : loByte (swap16 v) = hiByte v := by simp [swap16]

/-! ### Payload and trailer -/

@[simp] theorem payloadOf_append (p : List Byte) (hi lo : Byte) : payloadOf (p ++ [hi, lo]) = p := by
  simp [payloadOf]

@[simp] theorem trailerOf_append (p : List Byte) (hi lo : Byte) : trailerOf (p ++ [hi, lo]) = ofBytes hi lo := by
  simp [trailerOf]

end Sys2Proof.Machine
end

