-- ==== Sys2Proof/Laws/State.lean ====
section
/-!
SUPPORT. One lemma per field per update of the state, so that no later proof unfolds a record update.
-/

namespace Sys2Proof.Machine

/-! ### setAcc -/

@[simp] theorem setAcc_acc (v : Half) (s : State) : (setAcc v s).acc = v := rfl
@[simp] theorem setAcc_crcOut (v : Half) (s : State) : (setAcc v s).crcOut = s.crcOut := rfl
@[simp] theorem setAcc_slave (v : Half) (s : State) : (setAcc v s).slave = s.slave := rfl
@[simp] theorem setAcc_func (v : Half) (s : State) : (setAcc v s).func = s.func := rfl
@[simp] theorem setAcc_count (v : Half) (s : State) : (setAcc v s).count = s.count := rfl
@[simp] theorem setAcc_frame (v : Half) (s : State) : (setAcc v s).frame = s.frame := rfl
@[simp] theorem setAcc_outv (v : Half) (s : State) : (setAcc v s).outv = s.outv := rfl
@[simp] theorem setAcc_framev (v : Half) (s : State) : (setAcc v s).framev = s.framev := rfl
@[simp] theorem setAcc_matched (v : Half) (s : State) : (setAcc v s).matched = s.matched := rfl
@[simp] theorem setAcc_nullcrc (v : Half) (s : State) : (setAcc v s).nullcrc = s.nullcrc := rfl
@[simp] theorem setAcc_err (v : Half) (s : State) : (setAcc v s).err = s.err := rfl
@[simp] theorem setAcc_draws (v : Half) (s : State) : (setAcc v s).draws = s.draws := rfl
@[simp] theorem setAcc_hostOps (v : Half) (s : State) : (setAcc v s).hostOps = s.hostOps := rfl
@[simp] theorem setAcc_answers (v : Half) (s : State) : (setAcc v s).answers = s.answers := rfl

/-! ### setCrcOut -/

@[simp] theorem setCrcOut_acc (v : Half) (s : State) : (setCrcOut v s).acc = s.acc := rfl
@[simp] theorem setCrcOut_crcOut (v : Half) (s : State) : (setCrcOut v s).crcOut = v := rfl
@[simp] theorem setCrcOut_slave (v : Half) (s : State) : (setCrcOut v s).slave = s.slave := rfl
@[simp] theorem setCrcOut_func (v : Half) (s : State) : (setCrcOut v s).func = s.func := rfl
@[simp] theorem setCrcOut_count (v : Half) (s : State) : (setCrcOut v s).count = s.count := rfl
@[simp] theorem setCrcOut_frame (v : Half) (s : State) : (setCrcOut v s).frame = s.frame := rfl
@[simp] theorem setCrcOut_outv (v : Half) (s : State) : (setCrcOut v s).outv = s.outv := rfl
@[simp] theorem setCrcOut_framev (v : Half) (s : State) : (setCrcOut v s).framev = s.framev := rfl
@[simp] theorem setCrcOut_matched (v : Half) (s : State) : (setCrcOut v s).matched = s.matched := rfl
@[simp] theorem setCrcOut_nullcrc (v : Half) (s : State) : (setCrcOut v s).nullcrc = s.nullcrc := rfl
@[simp] theorem setCrcOut_err (v : Half) (s : State) : (setCrcOut v s).err = s.err := rfl
@[simp] theorem setCrcOut_draws (v : Half) (s : State) : (setCrcOut v s).draws = s.draws := rfl
@[simp] theorem setCrcOut_hostOps (v : Half) (s : State) : (setCrcOut v s).hostOps = s.hostOps := rfl
@[simp] theorem setCrcOut_answers (v : Half) (s : State) : (setCrcOut v s).answers = s.answers := rfl

/-! ### setSlave -/

@[simp] theorem setSlave_acc (v : Byte) (s : State) : (setSlave v s).acc = s.acc := rfl
@[simp] theorem setSlave_crcOut (v : Byte) (s : State) : (setSlave v s).crcOut = s.crcOut := rfl
@[simp] theorem setSlave_slave (v : Byte) (s : State) : (setSlave v s).slave = v := rfl
@[simp] theorem setSlave_func (v : Byte) (s : State) : (setSlave v s).func = s.func := rfl
@[simp] theorem setSlave_count (v : Byte) (s : State) : (setSlave v s).count = s.count := rfl
@[simp] theorem setSlave_frame (v : Byte) (s : State) : (setSlave v s).frame = s.frame := rfl
@[simp] theorem setSlave_outv (v : Byte) (s : State) : (setSlave v s).outv = s.outv := rfl
@[simp] theorem setSlave_framev (v : Byte) (s : State) : (setSlave v s).framev = s.framev := rfl
@[simp] theorem setSlave_matched (v : Byte) (s : State) : (setSlave v s).matched = s.matched := rfl
@[simp] theorem setSlave_nullcrc (v : Byte) (s : State) : (setSlave v s).nullcrc = s.nullcrc := rfl
@[simp] theorem setSlave_err (v : Byte) (s : State) : (setSlave v s).err = s.err := rfl
@[simp] theorem setSlave_draws (v : Byte) (s : State) : (setSlave v s).draws = s.draws := rfl
@[simp] theorem setSlave_hostOps (v : Byte) (s : State) : (setSlave v s).hostOps = s.hostOps := rfl
@[simp] theorem setSlave_answers (v : Byte) (s : State) : (setSlave v s).answers = s.answers := rfl

/-! ### setFunc -/

@[simp] theorem setFunc_acc (v : Byte) (s : State) : (setFunc v s).acc = s.acc := rfl
@[simp] theorem setFunc_crcOut (v : Byte) (s : State) : (setFunc v s).crcOut = s.crcOut := rfl
@[simp] theorem setFunc_slave (v : Byte) (s : State) : (setFunc v s).slave = s.slave := rfl
@[simp] theorem setFunc_func (v : Byte) (s : State) : (setFunc v s).func = v := rfl
@[simp] theorem setFunc_count (v : Byte) (s : State) : (setFunc v s).count = s.count := rfl
@[simp] theorem setFunc_frame (v : Byte) (s : State) : (setFunc v s).frame = s.frame := rfl
@[simp] theorem setFunc_outv (v : Byte) (s : State) : (setFunc v s).outv = s.outv := rfl
@[simp] theorem setFunc_framev (v : Byte) (s : State) : (setFunc v s).framev = s.framev := rfl
@[simp] theorem setFunc_matched (v : Byte) (s : State) : (setFunc v s).matched = s.matched := rfl
@[simp] theorem setFunc_nullcrc (v : Byte) (s : State) : (setFunc v s).nullcrc = s.nullcrc := rfl
@[simp] theorem setFunc_err (v : Byte) (s : State) : (setFunc v s).err = s.err := rfl
@[simp] theorem setFunc_draws (v : Byte) (s : State) : (setFunc v s).draws = s.draws := rfl
@[simp] theorem setFunc_hostOps (v : Byte) (s : State) : (setFunc v s).hostOps = s.hostOps := rfl
@[simp] theorem setFunc_answers (v : Byte) (s : State) : (setFunc v s).answers = s.answers := rfl

/-! ### setCount -/

@[simp] theorem setCount_acc (v : Half) (s : State) : (setCount v s).acc = s.acc := rfl
@[simp] theorem setCount_crcOut (v : Half) (s : State) : (setCount v s).crcOut = s.crcOut := rfl
@[simp] theorem setCount_slave (v : Half) (s : State) : (setCount v s).slave = s.slave := rfl
@[simp] theorem setCount_func (v : Half) (s : State) : (setCount v s).func = s.func := rfl
@[simp] theorem setCount_count (v : Half) (s : State) : (setCount v s).count = v := rfl
@[simp] theorem setCount_frame (v : Half) (s : State) : (setCount v s).frame = s.frame := rfl
@[simp] theorem setCount_outv (v : Half) (s : State) : (setCount v s).outv = s.outv := rfl
@[simp] theorem setCount_framev (v : Half) (s : State) : (setCount v s).framev = s.framev := rfl
@[simp] theorem setCount_matched (v : Half) (s : State) : (setCount v s).matched = s.matched := rfl
@[simp] theorem setCount_nullcrc (v : Half) (s : State) : (setCount v s).nullcrc = s.nullcrc := rfl
@[simp] theorem setCount_err (v : Half) (s : State) : (setCount v s).err = s.err := rfl
@[simp] theorem setCount_draws (v : Half) (s : State) : (setCount v s).draws = s.draws := rfl
@[simp] theorem setCount_hostOps (v : Half) (s : State) : (setCount v s).hostOps = s.hostOps := rfl
@[simp] theorem setCount_answers (v : Half) (s : State) : (setCount v s).answers = s.answers := rfl

/-! ### setFrame -/

@[simp] theorem setFrame_acc (v : Vector Byte 8) (s : State) : (setFrame v s).acc = s.acc := rfl
@[simp] theorem setFrame_crcOut (v : Vector Byte 8) (s : State) : (setFrame v s).crcOut = s.crcOut := rfl
@[simp] theorem setFrame_slave (v : Vector Byte 8) (s : State) : (setFrame v s).slave = s.slave := rfl
@[simp] theorem setFrame_func (v : Vector Byte 8) (s : State) : (setFrame v s).func = s.func := rfl
@[simp] theorem setFrame_count (v : Vector Byte 8) (s : State) : (setFrame v s).count = s.count := rfl
@[simp] theorem setFrame_frame (v : Vector Byte 8) (s : State) : (setFrame v s).frame = v := rfl
@[simp] theorem setFrame_outv (v : Vector Byte 8) (s : State) : (setFrame v s).outv = s.outv := rfl
@[simp] theorem setFrame_framev (v : Vector Byte 8) (s : State) : (setFrame v s).framev = s.framev := rfl
@[simp] theorem setFrame_matched (v : Vector Byte 8) (s : State) : (setFrame v s).matched = s.matched := rfl
@[simp] theorem setFrame_nullcrc (v : Vector Byte 8) (s : State) : (setFrame v s).nullcrc = s.nullcrc := rfl
@[simp] theorem setFrame_err (v : Vector Byte 8) (s : State) : (setFrame v s).err = s.err := rfl
@[simp] theorem setFrame_draws (v : Vector Byte 8) (s : State) : (setFrame v s).draws = s.draws := rfl
@[simp] theorem setFrame_hostOps (v : Vector Byte 8) (s : State) : (setFrame v s).hostOps = s.hostOps := rfl
@[simp] theorem setFrame_answers (v : Vector Byte 8) (s : State) : (setFrame v s).answers = s.answers := rfl

/-! ### setErr -/

@[simp] theorem setErr_acc (v : ErrCode) (s : State) : (setErr v s).acc = s.acc := rfl
@[simp] theorem setErr_crcOut (v : ErrCode) (s : State) : (setErr v s).crcOut = s.crcOut := rfl
@[simp] theorem setErr_slave (v : ErrCode) (s : State) : (setErr v s).slave = s.slave := rfl
@[simp] theorem setErr_func (v : ErrCode) (s : State) : (setErr v s).func = s.func := rfl
@[simp] theorem setErr_count (v : ErrCode) (s : State) : (setErr v s).count = s.count := rfl
@[simp] theorem setErr_frame (v : ErrCode) (s : State) : (setErr v s).frame = s.frame := rfl
@[simp] theorem setErr_outv (v : ErrCode) (s : State) : (setErr v s).outv = s.outv := rfl
@[simp] theorem setErr_framev (v : ErrCode) (s : State) : (setErr v s).framev = s.framev := rfl
@[simp] theorem setErr_matched (v : ErrCode) (s : State) : (setErr v s).matched = s.matched := rfl
@[simp] theorem setErr_nullcrc (v : ErrCode) (s : State) : (setErr v s).nullcrc = s.nullcrc := rfl
@[simp] theorem setErr_err (v : ErrCode) (s : State) : (setErr v s).err = v := rfl
@[simp] theorem setErr_draws (v : ErrCode) (s : State) : (setErr v s).draws = s.draws := rfl
@[simp] theorem setErr_hostOps (v : ErrCode) (s : State) : (setErr v s).hostOps = s.hostOps := rfl
@[simp] theorem setErr_answers (v : ErrCode) (s : State) : (setErr v s).answers = s.answers := rfl

/-! ### setOutv -/

@[simp] theorem setOutv_acc (s : State) : (setOutv s).acc = s.acc := rfl
@[simp] theorem setOutv_crcOut (s : State) : (setOutv s).crcOut = s.crcOut := rfl
@[simp] theorem setOutv_slave (s : State) : (setOutv s).slave = s.slave := rfl
@[simp] theorem setOutv_func (s : State) : (setOutv s).func = s.func := rfl
@[simp] theorem setOutv_count (s : State) : (setOutv s).count = s.count := rfl
@[simp] theorem setOutv_frame (s : State) : (setOutv s).frame = s.frame := rfl
@[simp] theorem setOutv_outv (s : State) : (setOutv s).outv = true := rfl
@[simp] theorem setOutv_framev (s : State) : (setOutv s).framev = s.framev := rfl
@[simp] theorem setOutv_matched (s : State) : (setOutv s).matched = s.matched := rfl
@[simp] theorem setOutv_nullcrc (s : State) : (setOutv s).nullcrc = s.nullcrc := rfl
@[simp] theorem setOutv_err (s : State) : (setOutv s).err = s.err := rfl
@[simp] theorem setOutv_draws (s : State) : (setOutv s).draws = s.draws := rfl
@[simp] theorem setOutv_hostOps (s : State) : (setOutv s).hostOps = s.hostOps := rfl
@[simp] theorem setOutv_answers (s : State) : (setOutv s).answers = s.answers := rfl

/-! ### setMatched -/

@[simp] theorem setMatched_acc (v : Bool) (s : State) : (setMatched v s).acc = s.acc := rfl
@[simp] theorem setMatched_crcOut (v : Bool) (s : State) : (setMatched v s).crcOut = s.crcOut := rfl
@[simp] theorem setMatched_slave (v : Bool) (s : State) : (setMatched v s).slave = s.slave := rfl
@[simp] theorem setMatched_func (v : Bool) (s : State) : (setMatched v s).func = s.func := rfl
@[simp] theorem setMatched_count (v : Bool) (s : State) : (setMatched v s).count = s.count := rfl
@[simp] theorem setMatched_frame (v : Bool) (s : State) : (setMatched v s).frame = s.frame := rfl
@[simp] theorem setMatched_outv (v : Bool) (s : State) : (setMatched v s).outv = s.outv := rfl
@[simp] theorem setMatched_framev (v : Bool) (s : State) : (setMatched v s).framev = s.framev := rfl
@[simp] theorem setMatched_matched (v : Bool) (s : State) : (setMatched v s).matched = v := rfl
@[simp] theorem setMatched_nullcrc (v : Bool) (s : State) : (setMatched v s).nullcrc = s.nullcrc := rfl
@[simp] theorem setMatched_err (v : Bool) (s : State) : (setMatched v s).err = s.err := rfl
@[simp] theorem setMatched_draws (v : Bool) (s : State) : (setMatched v s).draws = s.draws := rfl
@[simp] theorem setMatched_hostOps (v : Bool) (s : State) : (setMatched v s).hostOps = s.hostOps := rfl
@[simp] theorem setMatched_answers (v : Bool) (s : State) : (setMatched v s).answers = s.answers := rfl

/-! ### markBuilt -/

@[simp] theorem markBuilt_acc (s : State) : (markBuilt s).acc = s.acc := rfl
@[simp] theorem markBuilt_crcOut (s : State) : (markBuilt s).crcOut = s.crcOut := rfl
@[simp] theorem markBuilt_slave (s : State) : (markBuilt s).slave = s.slave := rfl
@[simp] theorem markBuilt_func (s : State) : (markBuilt s).func = s.func := rfl
@[simp] theorem markBuilt_count (s : State) : (markBuilt s).count = s.count := rfl
@[simp] theorem markBuilt_frame (s : State) : (markBuilt s).frame = s.frame := rfl
@[simp] theorem markBuilt_outv (s : State) : (markBuilt s).outv = s.outv := rfl
@[simp] theorem markBuilt_framev (s : State) : (markBuilt s).framev = true := rfl
@[simp] theorem markBuilt_matched (s : State) : (markBuilt s).matched = s.matched := rfl
@[simp] theorem markBuilt_nullcrc (s : State) : (markBuilt s).nullcrc = false := rfl
@[simp] theorem markBuilt_err (s : State) : (markBuilt s).err = s.err := rfl
@[simp] theorem markBuilt_draws (s : State) : (markBuilt s).draws = s.draws := rfl
@[simp] theorem markBuilt_hostOps (s : State) : (markBuilt s).hostOps = s.hostOps := rfl
@[simp] theorem markBuilt_answers (s : State) : (markBuilt s).answers = s.answers := rfl

/-! ### markSkipped -/

@[simp] theorem markSkipped_acc (s : State) : (markSkipped s).acc = s.acc := rfl
@[simp] theorem markSkipped_crcOut (s : State) : (markSkipped s).crcOut = s.crcOut := rfl
@[simp] theorem markSkipped_slave (s : State) : (markSkipped s).slave = s.slave := rfl
@[simp] theorem markSkipped_func (s : State) : (markSkipped s).func = s.func := rfl
@[simp] theorem markSkipped_count (s : State) : (markSkipped s).count = s.count := rfl
@[simp] theorem markSkipped_frame (s : State) : (markSkipped s).frame = s.frame := rfl
@[simp] theorem markSkipped_outv (s : State) : (markSkipped s).outv = s.outv := rfl
@[simp] theorem markSkipped_framev (s : State) : (markSkipped s).framev = false := rfl
@[simp] theorem markSkipped_matched (s : State) : (markSkipped s).matched = s.matched := rfl
@[simp] theorem markSkipped_nullcrc (s : State) : (markSkipped s).nullcrc = true := rfl
@[simp] theorem markSkipped_err (s : State) : (markSkipped s).err = s.err := rfl
@[simp] theorem markSkipped_draws (s : State) : (markSkipped s).draws = s.draws := rfl
@[simp] theorem markSkipped_hostOps (s : State) : (markSkipped s).hostOps = s.hostOps := rfl
@[simp] theorem markSkipped_answers (s : State) : (markSkipped s).answers = s.answers := rfl

/-! ### setHostOps -/

@[simp] theorem setHostOps_acc (ops : List HostOp) (s : State) : (setHostOps ops s).acc = s.acc := rfl
@[simp] theorem setHostOps_crcOut (ops : List HostOp) (s : State) : (setHostOps ops s).crcOut = s.crcOut := rfl
@[simp] theorem setHostOps_slave (ops : List HostOp) (s : State) : (setHostOps ops s).slave = s.slave := rfl
@[simp] theorem setHostOps_func (ops : List HostOp) (s : State) : (setHostOps ops s).func = s.func := rfl
@[simp] theorem setHostOps_count (ops : List HostOp) (s : State) : (setHostOps ops s).count = s.count := rfl
@[simp] theorem setHostOps_frame (ops : List HostOp) (s : State) : (setHostOps ops s).frame = s.frame := rfl
@[simp] theorem setHostOps_outv (ops : List HostOp) (s : State) : (setHostOps ops s).outv = s.outv := rfl
@[simp] theorem setHostOps_framev (ops : List HostOp) (s : State) : (setHostOps ops s).framev = s.framev := rfl
@[simp] theorem setHostOps_matched (ops : List HostOp) (s : State) : (setHostOps ops s).matched = s.matched := rfl
@[simp] theorem setHostOps_nullcrc (ops : List HostOp) (s : State) : (setHostOps ops s).nullcrc = s.nullcrc := rfl
@[simp] theorem setHostOps_err (ops : List HostOp) (s : State) : (setHostOps ops s).err = s.err := rfl
@[simp] theorem setHostOps_draws (ops : List HostOp) (s : State) : (setHostOps ops s).draws = s.draws := rfl
@[simp] theorem setHostOps_hostOps (ops : List HostOp) (s : State) : (setHostOps ops s).hostOps = ops := rfl
@[simp] theorem setHostOps_answers (ops : List HostOp) (s : State) : (setHostOps ops s).answers = s.answers := rfl

/-! ### hostReset -/

@[simp] theorem hostReset_acc (c : Config) (s : State) :
    (hostReset c s).acc = 0xFFFF := rfl
@[simp] theorem hostReset_crcOut (c : Config) (s : State) :
    (hostReset c s).crcOut = Config.crcOutDraw s.draws := rfl
@[simp] theorem hostReset_slave (c : Config) (s : State) :
    (hostReset c s).slave = c.resetSlave := rfl
@[simp] theorem hostReset_func (c : Config) (s : State) :
    (hostReset c s).func = c.resetFunc := rfl
@[simp] theorem hostReset_count (c : Config) (s : State) :
    (hostReset c s).count = c.resetCount := rfl
@[simp] theorem hostReset_frame (c : Config) (s : State) :
    (hostReset c s).frame = Vector.ofFn (Config.frameDraw s.draws) := rfl
@[simp] theorem hostReset_outv (c : Config) (s : State) :
    (hostReset c s).outv = false := rfl
@[simp] theorem hostReset_framev (c : Config) (s : State) :
    (hostReset c s).framev = false := rfl
@[simp] theorem hostReset_matched (c : Config) (s : State) :
    (hostReset c s).matched = false := rfl
@[simp] theorem hostReset_nullcrc (c : Config) (s : State) :
    (hostReset c s).nullcrc = false := rfl
@[simp] theorem hostReset_err (c : Config) (s : State) :
    (hostReset c s).err = .noError := rfl
@[simp] theorem hostReset_draws (c : Config) (s : State) :
    (hostReset c s).draws = s.draws + 1 := rfl
@[simp] theorem hostReset_hostOps (c : Config) (s : State) :
    (hostReset c s).hostOps = s.hostOps := rfl
@[simp] theorem hostReset_answers (c : Config) (s : State) :
    (hostReset c s).answers = s.answers := rfl

/-! ### hostRead -/

@[simp] theorem hostRead_acc (idx : Byte) (s : State) : (hostRead idx s).acc = s.acc := rfl
@[simp] theorem hostRead_crcOut (idx : Byte) (s : State) : (hostRead idx s).crcOut = s.crcOut := rfl
@[simp] theorem hostRead_slave (idx : Byte) (s : State) : (hostRead idx s).slave = s.slave := rfl
@[simp] theorem hostRead_func (idx : Byte) (s : State) : (hostRead idx s).func = s.func := rfl
@[simp] theorem hostRead_count (idx : Byte) (s : State) : (hostRead idx s).count = s.count := rfl
@[simp] theorem hostRead_frame (idx : Byte) (s : State) : (hostRead idx s).frame = s.frame := rfl
@[simp] theorem hostRead_outv (idx : Byte) (s : State) : (hostRead idx s).outv = s.outv := rfl
@[simp] theorem hostRead_framev (idx : Byte) (s : State) : (hostRead idx s).framev = s.framev := rfl
@[simp] theorem hostRead_matched (idx : Byte) (s : State) : (hostRead idx s).matched = s.matched := rfl
@[simp] theorem hostRead_nullcrc (idx : Byte) (s : State) : (hostRead idx s).nullcrc = s.nullcrc := rfl
@[simp] theorem hostRead_err (idx : Byte) (s : State) : (hostRead idx s).err = s.err := rfl
@[simp] theorem hostRead_draws (idx : Byte) (s : State) : (hostRead idx s).draws = s.draws := rfl
@[simp] theorem hostRead_hostOps (idx : Byte) (s : State) : (hostRead idx s).hostOps = s.hostOps := rfl
@[simp] theorem hostRead_answers (idx : Byte) (s : State) : (hostRead idx s).answers = { idx := idx, value := readPort s idx } :: s.answers := rfl

end Sys2Proof.Machine
end

