-- ==== Sys2Proof/Laws/Ops.lean ====
section
/-!
SUPPORT. What each shared operation can do, said once.
-/

namespace Sys2Proof.Machine

/-- raiseError changes ERR only, and only where it holds no error (R131, R132). -/
theorem raiseError_eq (e : CmdError) (s : State) :
    raiseError e s = { s with err := if s.err = .noError then errCodeOf e else s.err } := by
  unfold raiseError
  split <;> simp [*, setErr]

theorem errCodeOf_ne_noError (e : CmdError) : errCodeOf e ≠ .noError := by cases e <;> decide

theorem errf_iff (s : State) : errf s = true ↔ s.err ≠ .noError := by
  unfold errf
  cases s.err <;> decide

theorem buildEffect_of_skip {c : Config} {a : Half} {s : State}
    (h : (c.nullCrcSkip && frameTrailer (requestFrame s.slave s.func a s.count) == 0) = true) :
    buildEffect c a s = markSkipped s := if_pos h

theorem buildEffect_of_write {c : Config} {a : Half} {s : State}
    (h : ¬(c.nullCrcSkip && frameTrailer (requestFrame s.slave s.func a s.count) == 0) = true) :
    buildEffect c a s = markBuilt (setFrame (requestFrame s.slave s.func a s.count) s) := if_neg h

/-- BUILD skips, or it writes the frame (R103, R104). -/
theorem buildEffect_cases (c : Config) (a : Half) (s : State) :
    (c.nullCrcSkip = true ∧ frameTrailer (requestFrame s.slave s.func a s.count) = 0 ∧
      buildEffect c a s = { s with framev := false, nullcrc := true }) ∨
    ((c.nullCrcSkip = false ∨ frameTrailer (requestFrame s.slave s.func a s.count) ≠ 0) ∧
      buildEffect c a s =
        { s with frame := requestFrame s.slave s.func a s.count, framev := true, nullcrc := false }) := by
  unfold buildEffect
  simp only [Bool.and_eq_true, beq_iff_eq]
  split
  · exact .inl ⟨by simp_all, by simp_all, rfl⟩
  · rename_i h
    refine .inr ⟨?_, rfl⟩
    by_cases hc : c.nullCrcSkip = true
    · exact .inr fun h0 => h ⟨hc, h0⟩
    · exact .inl (by simpa using hc)

/-! ### perform and issue -/

/-- The dispatch of the machine performs the command under the configuration the spec takes. -/
theorem exec_eq_perform (i : Instr) (s : State) : exec i s = .next (perform Config.taken i s) := by cases i <;> rfl

theorem issue_of_decode {w : Word} {i : Instr} (h : decode w = .ok i) (c : Config) (s : State) :
    issue c s w = perform c i s := by
  simp [issue, h]

theorem issue_of_error {w : Word} {e : CmdError} (h : decode w = .error e) (c : Config) (s : State) :
    issue c s w = raiseError e s := by
  simp [issue, h]

/-- No command reads or writes the operations the host has still to apply. -/
theorem perform_setHostOps (c : Config) (i : Instr) (s : State) (ops : List HostOp) :
    perform c i (setHostOps ops s) = setHostOps ops (perform c i s) := by
  cases i with
  | build a =>
    show buildEffect c a (setHostOps ops s) = setHostOps ops (buildEffect c a s)
    by_cases h : (c.nullCrcSkip && frameTrailer (requestFrame s.slave s.func a s.count) == 0) = true
    · rw [buildEffect_of_skip h, buildEffect_of_skip (s := setHostOps ops s) h]
      rfl
    · rw [buildEffect_of_write h, buildEffect_of_write (s := setHostOps ops s) h]
      rfl
  | _ => rfl

@[simp] theorem issueAll_nil (c : Config) (s : State) : issueAll c s [] = s := rfl

@[simp] theorem issueAll_cons (c : Config) (s : State) (w : Word) (ws : List Word) :
    issueAll c s (w :: ws) = issueAll c (issue c s w) ws := rfl

theorem issueAll_append (c : Config) (s : State) (ws vs : List Word) :
    issueAll c s (ws ++ vs) = issueAll c (issueAll c s ws) vs := List.foldl_append

end Sys2Proof.Machine
end

