-- ==== Sys2Proof/Laws/PerInstr.lean ====
section
/-!
SUPPORT. Laws of every command as syntax, one lemma per constructor: the word a command is encoded as has zeros in every reserved
bit of its form (spec 30_encoding.md R61, R64).
-/

namespace Sys2Proof.Laws.ReservedBitsZero

/-- The encoding of a command has its opcode in OP and nothing in the bits its form reserves. -/
def Statement (i : Instr) : Prop :=
  opField (encode i) = i.mnemonic.op ∧ rsvField (encode i) = 0 ∧
    immField (encode i) &&& immField i.mnemonic.mask = 0

/-- No byte operand reaches the reserved high byte of IMM. -/
theorem byte_operand_reserved (b : Byte) : b.setWidth 16 &&& immField (Form.mask .B) = 0 := by
  revert b; decide

/-- A halfword operand fills IMM: form H reserves none of it. -/
theorem half_operand_reserved (h : Half) : h &&& immField (Form.mask .H) = 0 := by
  rw [show immField (Form.mask .H) = 0 by decide]
  exact BitVec.and_zero

theorem of_imm {i : Instr} (h : i.imm &&& immField i.mnemonic.mask = 0) : Statement i := by
  refine ⟨opField_encode i, rsvField_encode i, ?_⟩
  rw [immField_encode]
  exact h

theorem nop : Statement .nop := of_imm (by decide)

theorem crcInit : Statement .crcInit := of_imm (by decide)

theorem crcFeed (b : Byte) : Statement (.crcFeed b) := of_imm (byte_operand_reserved b)

theorem crcRead : Statement .crcRead := of_imm (by decide)

theorem crcCmp (h : Half) : Statement (.crcCmp h) := of_imm (half_operand_reserved h)

theorem setSlave (b : Byte) : Statement (.setSlave b) := of_imm (byte_operand_reserved b)

theorem setFunc (b : Byte) : Statement (.setFunc b) := of_imm (byte_operand_reserved b)

theorem setCount (h : Half) : Statement (.setCount h) := of_imm (half_operand_reserved h)

theorem build (a : Half) : Statement (.build a) := of_imm (half_operand_reserved a)

end Sys2Proof.Laws.ReservedBitsZero
end

