-- ==== Sys2Proof/Laws/Step.lean ====
section
/-!
SUPPORT. What a step can do, said once: every step is one of five cases.
-/

namespace Sys2Proof.Machine

theorem step_of_nil {s : State} (h : s.hostOps = []) : step s = .next s := by
  simp only [step, applyNextHostOp, h]

theorem step_of_cons {s : State} {op : HostOp} {rest : List HostOp} (h : s.hostOps = op :: rest) :
    step s = applyHostOp op (setHostOps rest s) := by
  simp only [step, applyNextHostOp, h]

@[simp] theorem step_hostApplies (op : HostOp) (s : State) : step (hostApplies op s) = applyHostOp op s := rfl

/-- The inversion of a step: the host applies nothing, resets, reads, issues a command, or issues a word that spells none. -/
theorem step_cases {s t : State} (h : step s = .next t) :
    (s.hostOps = [] ∧ t = s) ∨
    (∃ rest, s.hostOps = .reset :: rest ∧ t = hostReset Config.taken (setHostOps rest s)) ∨
    (∃ idx rest, s.hostOps = .read idx :: rest ∧ t = hostRead idx (setHostOps rest s)) ∨
    (∃ w rest i, s.hostOps = .issue w :: rest ∧ decode w = .ok i ∧ t = perform Config.taken i (setHostOps rest s)) ∨
    (∃ w rest e, s.hostOps = .issue w :: rest ∧ decode w = .error e ∧ t = raiseError e (setHostOps rest s)) := by
  cases hops : s.hostOps with
  | nil =>
    rw [step_of_nil hops] at h
    cases h
    exact .inl ⟨rfl, rfl⟩
  | cons op rest =>
    rw [step_of_cons hops] at h
    cases op with
    | reset => cases h; exact .inr (.inl ⟨rest, rfl, rfl⟩)
    | read idx => cases h; exact .inr (.inr (.inl ⟨idx, rest, rfl, rfl⟩))
    | issue w =>
      simp only [applyHostOp, issueWord] at h
      cases hd : decode w with
      | ok i =>
        rw [hd] at h
        simp only [exec_eq_perform] at h
        cases h
        exact .inr (.inr (.inr (.inl ⟨w, rest, i, rfl, hd, rfl⟩)))
      | error e =>
        rw [hd] at h
        cases h
        exact .inr (.inr (.inr (.inr ⟨w, rest, e, rfl, hd, rfl⟩)))

/-! ### Runs -/

@[simp] theorem runSteps_zero (s : State) : runSteps 0 s = .next s := rfl

/-- A run of any machine whose first step answers a next state goes on from it. -/
theorem run_succ (M : Host.Core) {s t : M.State} (h : M.step s = .next t) (k : Nat) : M.run (k + 1) s = M.run k t := by
  simp [Host.Core.run, h]

theorem runSteps_succ {s t : State} (h : step s = .next t) (k : Nat) : runSteps (k + 1) s = runSteps k t :=
  run_succ Sys2Proof.core h k

end Sys2Proof.Machine
end

