-- ==== Sys2Proof/Tests/Slice0.lean ====
section
/-!
SUPPORT. The model's own tests. Words are written out from the encodings of spec 30_encoding.md R60 to R62; expected values come from
the examples of the rules and the vectors of 95_test_vectors.md, whose section is named at each group. The witness theorems show, for
each statement with hypotheses, a state and operands that meet them together.
-/

namespace Sys2Proof.Tests

open Sys2Proof.Machine

/-! ### Helpers -/

/-- A small state with every field written out: the stated reset values, and zeros in CRC_OUT and FRAME. -/
def plain : State :=
  { acc := 0xFFFF, crcOut := 0, slave := 0x01, func := 0x04, count := 0x0001, frame := Vector.replicate 8 0
    outv := false, framev := false, matched := false, nullcrc := false, err := .noError
    draws := 1, hostOps := [], answers := [] }

/-- plain with another accumulator. -/
def withAcc (a : Half) : State := { plain with acc := a }

/-- One field of what the machine answers to the host applying an operation. -/
def after {α : Type} (op : HostOp) (s : State) (field : State → α) : Option α :=
  (nextOf (step (hostApplies op s))).map field

/-- The configuration of the original repository (R104). -/
def skipping : Config := { Config.taken with nullCrcSkip := true }

/-! ### Decoding: words written out bit by bit (R62; 95_test_vectors.md section 2.8) -/

theorem test_decode_nop : decode 0b00000000000000000000000000000000#32 = .ok .nop := by rfl

theorem test_decode_crcInit : decode 0b00000001000000000000000000000000#32 = .ok .crcInit := by rfl

theorem test_decode_crcFeed : decode 0b00000010000000000000000010000001#32 = .ok (.crcFeed 0x81) := by rfl

theorem test_decode_crcRead : decode 0b00000011000000000000000000000000#32 = .ok .crcRead := by rfl

theorem test_decode_crcCmp : decode 0b00000100000000001000000000000001#32 = .ok (.crcCmp 0x8001) := by rfl

theorem test_decode_setSlave : decode 0b00010000000000000000000000010001#32 = .ok (.setSlave 0x11) := by rfl

theorem test_decode_setFunc : decode 0b00010001000000000000000000000011#32 = .ok (.setFunc 0x03) := by rfl

theorem test_decode_setCount : decode 0b00010010000000001000000001111101#32 = .ok (.setCount 0x807D) := by rfl

theorem test_decode_build : decode 0b00010011000000000000101110111000#32 = .ok (.build 3000) := by rfl

theorem test_decode_first_unassigned : decode 0x05000000#32 = .error .illegalOp := by rfl

theorem test_decode_illegal_wins : decode 0x05FF0000#32 = .error .illegalOp := by rfl

theorem test_decode_after_last : decode 0x14000000#32 = .error .illegalOp := by rfl

theorem test_decode_rsv : decode 0x00010000#32 = .error .reservedNz := by rfl

theorem test_encode_build : encode (.build 3000) = 0x13000BB8#32 := by rfl

theorem test_table_word : decodeTableWord 32 0x040038EF = some (.crcCmp 0x38EF) := by rfl

theorem test_table_word_refused : decodeTableWord 32 0x02000100 = none := by rfl

/-- The word runs as the first command after reset. -/
theorem test_fetch_word_runs :
    (nextOf (step (State.reset.withFetchWord 32 0x02000055))).map (·.acc) = some 0x7F7F := by decide +kernel

/-! ### Well-formedness: an ill-formed term for each check, refused -/

theorem test_word_unassigned_op_ill : wordWf 0xFF0000AA#32 = false := by rfl

theorem test_word_reserved_N_ill : wordWf 0x00000001#32 = false := by rfl

theorem test_word_reserved_B_ill : wordWf 0x02000100#32 = false := by rfl

theorem test_word_reserved_H_ill : wordWf 0x13010BB8#32 = false := by rfl

theorem test_numeral_without_digit_ill : Numeral.wf (.hex []) = false ∧ Numeral.wf (.dec []) = false := by decide

theorem test_byte_too_wide_ill : Numeral.fitsByte (.dec [2, 5, 6]) = false := by decide

theorem test_half_too_wide_ill : Numeral.fitsHalf (.hex [1, 0, 0, 0, 0]) = false := by decide

theorem test_line_operands_ill :
    AsmLine.wf (.command .nop (some (.dec [0]))) = false ∧ AsmLine.wf (.command .crcFeed none) = false ∧
      AsmLine.wf (.command .build none) = false := by decide

theorem test_macros_ill :
    AsmLine.wf (.crc16 [.dec [2, 5, 6]]) = false ∧
      AsmLine.wf (.request (.dec [1]) (.dec [4]) (.dec [6, 5, 5, 3, 6]) (.dec [1])) = false ∧
      AsmLine.wf (.check [.dec [1]]) = false ∧ AsmLine.wf (.check [.dec [1], .hex [1, 0, 0]]) = false := by decide

/-! ### The checksum (95_test_vectors.md sections 1, 2.1 to 2.3) -/

theorem test_crcBit : crcBit 0x0001 = 0xA001 ∧ crcBit 0x8000 = 0x4000 ∧ crcBit 0xFFFF = 0xDFFE := by decide

theorem test_crc_golden : crc16 [0x01, 0x04, 0x0B, 0xB8, 0x00, 0x01] = 0xB3CB := by decide +kernel

theorem test_crc_check_value :
    crcAcc [0x31, 0x32, 0x33, 0x34, 0x35, 0x36, 0x37, 0x38, 0x39] = 0x4B37 := by decide +kernel

theorem test_crc_modbus_example : crc16 [0x11, 0x03, 0x00, 0x6B, 0x00, 0x03] = 0x7687 := by decide +kernel

/-! ### The commands, one step each (95_test_vectors.md sections 2.2, 2.4, 2.6) -/

theorem test_nop : after (.issue 0x00000000) (withAcc 0xCBB3) id = some (withAcc 0xCBB3) := by decide +kernel

theorem test_crcInit : after (.issue 0x01000000) (withAcc 0xCBB3) id = some (withAcc 0xFFFF) := by decide +kernel

theorem test_crcFeed : after (.issue 0x02000056) (withAcc 0x1234) (·.acc) = some 0xE993 := by decide +kernel

theorem test_crcFeed_to_zero : after (.issue 0x020000FF) (withAcc 0x00FF) (·.acc) = some 0x0000 := by decide +kernel

theorem test_crcRead :
    after (.issue 0x03000000) (withAcc 0xCBB3) (fun t => (t.crcOut, t.outv, t.acc)) = some (0xB3CB, true, 0xCBB3) := by
  decide +kernel

theorem test_crcCmp_match : after (.issue 0x0400B3CB) (withAcc 0xCBB3) (·.matched) = some true := by decide +kernel

theorem test_crcCmp_swapped :
    after (.issue 0x0400CBB3) { withAcc 0xCBB3 with matched := true } (·.matched) = some false := by decide +kernel

theorem test_setSlave : after (.issue 0x100000FF) plain (fun t => (t.slave, t.frame)) = some (0xFF, plain.frame) := by
  decide +kernel

theorem test_setFunc : after (.issue 0x11000003) plain (·.func) = some 0x03 := by decide +kernel

theorem test_setCount : after (.issue 0x1200FFFF) plain (·.count) = some 0xFFFF := by decide +kernel

theorem test_build :
    after (.issue 0x13000BB8) { plain with slave := 0xF7 } (fun t => (t.frame.toList, t.framev, t.acc)) =
      some ([0xF7, 0x04, 0x0B, 0xB8, 0x00, 0x01, 0xA7, 0x5D], true, 0xFFFF) := by decide +kernel

theorem test_build_null_crc :
    after (.issue 0x1300FEA0) plain (fun t => (t.frame.toList, t.framev, t.nullcrc)) =
      some ([0x01, 0x04, 0xFE, 0xA0, 0x00, 0x01, 0x00, 0x00], true, false) := by decide +kernel

/-- Program P6 with P_NULL_CRC_SKIP = true: the frame stays, STATUS reads 0x0008. -/
theorem test_build_skipped :
    (issue skipping plain 0x1300FEA0).frame = plain.frame ∧ readPort (issue skipping plain 0x1300FEA0) 0x00 = 0x0008 := by
  decide +kernel

/-! ### Errors, the read port, reset (95_test_vectors.md sections 2.8, 2.9) -/

theorem test_first_error_kept :
    after (.issue 0x05000000) { plain with err := .reservedNz } (·.err) = some .reservedNz := by decide +kernel

theorem test_error_recorded : after (.issue 0x02FF0001) plain id = some { plain with err := .reservedNz } := by
  decide +kernel

theorem test_status_word : readPort { plain with err := .illegalOp, outv := true } 0x00 = 0x0011 := by decide +kernel

theorem test_read_frame_cell :
    after (.read 0x16) { plain with frame := requestFrame 1 4 3000 1 } (·.answers) = some [⟨0x16, 0x00B3⟩] := by
  decide +kernel

theorem test_read_unmapped :
    [0x07, 0x0F, 0x18, 0xFF].map (readPort { plain with frame := Vector.replicate 8 0xFF }) = [0, 0, 0, 0] := by
  decide +kernel

theorem test_reset : after .reset (withAcc 0x1234) (fun t => (t.acc, t.slave, t.func, t.count, t.draws)) =
    some (0xFFFF, 0x01, 0x04, 0x0001, 2) := by decide +kernel

/-! ### The response check and the assembler (95_test_vectors.md section 2.7; R70) -/

theorem test_response_ok :
    (validateResponse Config.taken plain [0x01, 0x04, 0x02, 0x00, 0x2A, 0x38, 0xEF]).1 =
      .ok [0x01, 0x04, 0x02, 0x00, 0x2A] := by decide +kernel

theorem test_response_corrupted :
    (validateResponse Config.taken plain [0x01, 0x04, 0x02, 0x00, 0x2B, 0x38, 0xEF]).1 = .crcError ∧
      (validateResponse Config.taken plain [0x01, 0x04, 0x02, 0x00, 0x2B, 0x38, 0xEF]).2.acc = 0x2FF9 := by
  decide +kernel

theorem test_response_too_short : (validateResponse Config.taken plain [0x01]).1 = .shapeError := by decide +kernel

theorem test_assemble_check :
    assemble (.check [.dec [1], .hex [7, 0xE], .hex [8, 0]]) = some [0x01000000, 0x02000001, 0x04007E80] := by
  decide +kernel

theorem test_text_request :
    assembleText "REQUEST 1, 4, 0x0fA0, 1".toList =
      some [0x10000001, 0x11000004, 0x12000001, 0x13000FA0] := by decide +kernel

theorem test_text_refused :
    assembleText "CRC_FEED 256".toList = none ∧ assembleText "NOP 0".toList = none ∧ assembleText "BUILD 0x".toList = none ∧
      assembleText "CHECK 0xFF".toList = none := by decide +kernel

/-! ### Witnesses: hypotheses of the statements met together -/

theorem witness_DecodedWordIsTheEncodingOfItsCommand : decode 0x02000055#32 = .ok (.crcFeed 0x55) := by rfl

theorem witness_DecodesExactlyWhenOneRowIsSelected : Mnemonic.selectedBy .crcFeed 0x02000055#32 = true := by rfl

/-- Both ranges at their bounds. -/
theorem witness_UnassignedOpcodeRaisesIllegalOp :
    (opField 0x05000000#32).toNat = 0x05 ∧ (opField 0x0FFFFFFF#32).toNat = 0x0F ∧ (opField 0x14000000#32).toNat = 0x14 ∧
      (opField 0xFF0000AA#32).toNat = 0xFF := by decide

theorem witness_ReservedBitsRaiseReservedNz :
    (opField 0x00000001#32 = Mnemonic.op .nop ∧ 0x00000001#32 &&& Mnemonic.mask .nop ≠ Mnemonic.pattern .nop) ∧
    (opField 0x02000100#32 = Mnemonic.op .crcFeed ∧ 0x02000100#32 &&& Mnemonic.mask .crcFeed ≠ Mnemonic.pattern .crcFeed) ∧
    (opField 0x13800000#32 = Mnemonic.op .build ∧ 0x13800000#32 &&& Mnemonic.mask .build ≠ Mnemonic.pattern .build) := by
  decide

theorem witness_BlockRaisesExactlyTwoErrors :
    decode 0x0F000000#32 = .error .illegalOp ∧ decode 0x03000001#32 = .error .reservedNz ∧
      decode 0x11000100#32 = .error .reservedNz ∧ decode 0x12010000#32 = .error .reservedNz := ⟨rfl, rfl, rfl, rfl⟩

theorem witness_NoLegalCommandFails : swap16 (withAcc 0xCBB3).acc ≠ 0xCBB3 := by decide

theorem witness_ErrorHasNoOtherEffectAndBlockGoesOn : decode 0x02000100#32 = .error .reservedNz := by rfl

theorem witness_FirstErrorIsKeptUntilReset :
    decode 0x05000000#32 = .error .illegalOp ∧ plain.err = .noError ∧
      ({ plain with err := .reservedNz } : State).err ≠ .noError ∧ HostOp.issue 0x05000000 ≠ .reset := by
  exact ⟨rfl, by decide, by decide, by decide⟩

theorem witness_StepKeepsBlockInvariant :
    BlockInv { plain with outv := true, framev := true, frame := requestFrame 1 4 3000 1, hostOps := [.issue 0x01000000] } ∧
      ∃ t, step { plain with
        outv := true, framev := true, frame := requestFrame 1 4 3000 1, hostOps := [.issue 0x01000000] } = .next t := by
  refine ⟨⟨fun _ => ?_, rfl, 0, rfl, fun h => (nomatch h), fun h => (nomatch h)⟩, _, rfl⟩
  decide +kernel

theorem witness_NoConfigurationUnsealsAFrame :
    FrameSealed { plain with framev := true, frame := requestFrame 1 4 3000 1 } ∧
      ¬(plain.framev = true ∧ plain.nullcrc = true) := by
  exact ⟨fun _ => by decide +kernel, by decide⟩

/-- For each register, a step that changes it. -/
theorem witness_RegistersChangeOnlyByTheirCommands :
    after (.issue 0x020000FF) plain (·.acc) = some 0x00FF ∧ after (.issue 0x03000000) plain (·.crcOut) = some 0xFFFF ∧
    after (.issue 0x10000011) plain (·.slave) = some 0x11 ∧ after (.issue 0x11000003) plain (·.func) = some 0x03 ∧
    after (.issue 0x1200007D) plain (·.count) = some 0x007D ∧
    after (.issue 0x13000BB8) plain (·.frame[0]) = some 0x01 ∧ after (.issue 0x03000000) plain (·.outv) = some true ∧
    after (.issue 0x13000BB8) plain (·.framev) = some true ∧ after (.issue 0x0400FFFF) plain (·.matched) = some true ∧
    after (.issue 0x13000BB8) { plain with nullcrc := true } (·.nullcrc) = some false ∧
    after (.issue 0x00000001) plain (·.err) = some .reservedNz := by decide +kernel

theorem witness_FlagsFollowTheirTable :
    (∀ h, Instr.crcRead ≠ .crcCmp h) ∧ (∀ a, Instr.crcRead ≠ .build a) ∧ decode 0x02000100#32 = .error .reservedNz :=
  ⟨fun _ => nofun, fun _ => nofun, rfl⟩

theorem witness_StepRunsTheDecodedCommand :
    (hostApplies (.issue 0x02000055) plain).hostOps = [.issue 0x02000055] ∧ decode 0x02000055#32 = .ok (.crcFeed 0x55) :=
  ⟨rfl, rfl⟩

theorem witness_StepWithNoHostOperationChangesNothing : plain.hostOps = [] := by rfl

/-- Both ranges at their bounds. -/
theorem witness_UnmappedIndexReadsZero :
    (0x07#8).toNat = 0x07 ∧ (0x0F#8).toNat = 0x0F ∧ (0x18#8).toNat = 0x18 ∧ (0xFF#8).toNat = 0xFF := by decide

theorem witness_ReadsHaveNoSideEffectAndRepeat :
    ¬Resets (hostApplies (.issue 0x01000000) plain) ∧
      ∃ t, step (hostApplies (.issue 0x01000000) plain) = .next t ∧ t.outv = false ∧ t.framev = false := by
  refine ⟨fun ⟨_, h⟩ => ?_, _, rfl, rfl, rfl⟩
  simp [hostApplies] at h

theorem witness_CrcByteIsEightShiftIterations : (0xA001#16).getLsbD 0 = true ∧ (0x8000#16).getLsbD 0 = false := by decide

theorem witness_CrcStepsAreOneToOne : crcBit 0x0001 = crcBit 0x0001 ∧ crcByte 0x1234 0x56 = crcByte 0x1234 0x56 := ⟨rfl, rfl⟩

theorem witness_CrcDifferenceDependsOnlyOnTheFlippedBits :
    ([0x01, 0x04] : List Byte).length = ([0x80, 0x00] : List Byte).length ∧
      ([0xFF, 0xFF] : List Byte).length = ([0x80, 0x00] : List Byte).length := ⟨rfl, rfl⟩

theorem witness_SingleBitFlipIsAlwaysDetected : 5 < ([0x01, 0x04, 0x0B, 0xB8, 0x00, 0x01] : List Byte).length ∧ 7 < 8 := by
  decide

theorem witness_ResidueIsZeroExactlyForAMatchingTrailer :
    2 ≤ ([0xFF, 0xFF] : List Byte).length ∧ crcByte (crcByte 0x1234 0x56) 0x78 = crcByte (crcByte 0x1234 0x56) 0x78 :=
  ⟨by decide, rfl⟩

theorem witness_CrcInitStartsANewChecksum : opField 0x01800000#32 = 0x01 ∧ (0x01800000#32).extractLsb' 0 24 ≠ 0 := by decide

theorem witness_CrcFeedProcessesOneByte : opField 0x02000100#32 = 0x02 ∧ (0x02000100#32).extractLsb' 8 16 ≠ 0 := by decide

theorem witness_CrcReadLatchesTheSwappedAccumulator :
    (withAcc 0xFFFF).acc = 0xFFFF ∧ (withAcc 0xCBB3).acc = 0xCBB3 ∧
      opField 0x03000001#32 = 0x03 ∧ (0x03000001#32).extractLsb' 0 24 ≠ 0 := by decide

theorem witness_CrcCmpComparesAllSixteenBits :
    (withAcc 0xFFFF).acc = 0xFFFF ∧ (withAcc 0xCBB3).acc = 0xCBB3 ∧
      opField 0x0401B3CB#32 = 0x04 ∧ (0x0401B3CB#32).extractLsb' 16 8 ≠ 0 := by decide

theorem witness_SetSlaveWritesTheSlaveId : opField 0x10000111#32 = 0x10 ∧ (0x10000111#32).extractLsb' 8 16 ≠ 0 := by decide

theorem witness_SetFuncWritesTheFunctionCode : opField 0x11000100#32 = 0x11 ∧ (0x11000100#32).extractLsb' 8 16 ≠ 0 := by
  decide

theorem witness_SetCountWritesTheRegisterCount : opField 0x12010000#32 = 0x12 ∧ (0x12010000#32).extractLsb' 16 8 ≠ 0 := by
  decide

theorem witness_BuildWritesTheRequestFrame :
    (∃ t, exec (.build 3000) plain = .next t) ∧ opField 0x13010BB8#32 = 0x13 ∧ (0x13010BB8#32).extractLsb' 16 8 ≠ 0 :=
  ⟨⟨_, rfl⟩, by decide, by decide⟩

/-- An address of each branch. -/
theorem witness_BuildSkipsANullCrcWhenConfigured :
    skipping.nullCrcSkip = true ∧ crc16 (requestBody plain.slave plain.func 0xFEA0 plain.count) = 0x0000 ∧
      crc16 (requestBody plain.slave plain.func 3000 plain.count) ≠ 0x0000 := by decide +kernel

theorem witness_RequestSequenceBuildsTheFrame :
    Config.taken.nullCrcSkip = false ∧
      ([.setCount 1, .setSlave 1, .setFunc 4] : List Instr).Perm [.setSlave 1, .setFunc 4, .setCount 1] := by decide

theorem witness_OnlyNopChangesNothing : Instr.crcRead ≠ .nop ∧ opField 0x00000001#32 = 0x00 ∧ (0x00000001#32).extractLsb' 0 24 ≠ 0 := by decide

theorem witness_ChecksumDependsOnlyOnTheFedBytes :
    ∀ w ∈ [0x02000001#32, 0x13000BB8#32, 0x05000000#32], decode w ≠ .ok .crcInit := by
  intro w hw h
  rcases List.mem_cons.1 hw with rfl | hw
  · cases h
  rcases List.mem_cons.1 hw with rfl | hw
  · cases h
  rcases List.mem_cons.1 hw with rfl | hw
  · cases h
  cases hw

theorem witness_CrcEngineAndFrameEncoderDoNotInteract :
    Instr.ofCrcEngine (.crcFeed 0x55) = true ∧ Instr.ofFrameEncoder (.build 3000) = true := ⟨rfl, rfl⟩

theorem witness_ResponseCheckComparesTheTrailer :
    ([0x01] : List Byte).length < 2 ∧ 2 ≤ ([0xFF, 0xFF] : List Byte).length := by decide

theorem witness_AssemblerEncodesOrRefusesACommand :
    Mnemonic.form .nop = .N ∧ Mnemonic.form .crcFeed ≠ .N ∧ Mnemonic.form .crcFeed = .B ∧ Mnemonic.form .build = .H ∧
      Numeral.wf (.dec [2, 5, 5]) = true := by decide

theorem witness_PseudoInstructionsExpandExactly :
    Numeral.fitsByte (.hex [0xF, 0xF]) = true ∧ Numeral.fitsHalf (.dec [6, 5, 5, 3, 5]) = true ∧
      ([.dec [1]] : List Numeral).length < 2 := by decide

end Sys2Proof.Tests
end

namespace Sys2Proof.Machine

/-! ### The machine's issue is the spec's issue (R14, R65) -/

theorem issueWord_eq_issue (w : Word) (s : State) : issueWord w s = .next (issue Config.taken s w) := by
  cases hd : decode w with
  | ok i => simp only [issueWord, hd, exec_eq_perform, issue_of_decode hd]
  | error e => simp only [issueWord, hd, issue_of_error hd]

theorem applyHostOp_issue (w : Word) (s : State) :
    applyHostOp (.issue w) s = .next (issue Config.taken s w) := issueWord_eq_issue w s

/-- Settles O24: the step applies the issued word, and each command's dispatch performs it under the configuration taken. -/
theorem machineStepIsIssue : Obligations.MachineStepIsIssue := by
  intro s w
  rw [step_hostApplies, applyHostOp_issue]

end Sys2Proof.Machine

namespace Sys2Proof

/-! ### A command read back from its encoding (R65, R66, R69) -/

open Laws.ReservedBitsZero in
/-- Every command's word has zeros in the bits its form reserves, from the law of each constructor. -/
theorem encode_reservedBitsZero : ∀ i : Instr, Laws.ReservedBitsZero.Statement i
  | .nop => nop
  | .crcInit => crcInit
  | .crcFeed b => crcFeed b
  | .crcRead => crcRead
  | .crcCmp h => crcCmp h
  | .setSlave b => setSlave b
  | .setFunc b => setFunc b
  | .setCount h => setCount h
  | .build a => build a

theorem selectedBy_encode (i : Instr) : i.mnemonic.selectedBy (encode i) = true :=
  (selectedBy_iff _ _).2 (encode_reservedBitsZero i)

@[simp] theorem byteOperand_setWidth (b : Byte) : byteOperand (b.setWidth 16) = b := Machine.loByte_setWidth b

@[simp] theorem command_mnemonic_imm (i : Instr) : i.mnemonic.command i.imm = i := by
  cases i <;> simp [Instr.mnemonic, Instr.imm, Mnemonic.command]

@[simp] theorem decode_encode (i : Instr) : decode (encode i) = .ok i := by
  rw [decode_of_selectedBy (selectedBy_encode i), immField_encode, command_mnemonic_imm]

end Sys2Proof

namespace Sys2Proof.Machine

@[simp] theorem issue_encode (c : Config) (s : State) (i : Instr) : issue c s (encode i) = perform c i s :=
  issue_of_decode (decode_encode i) c s

/-! ### The frame that BUILD writes (R67) -/

theorem requestFrame_take (s f : Byte) (a c : Half) : (requestFrame s f a c).toList.take 6 = requestBody s f a c := rfl

/-- The last two cells of a request frame hold the CRC of its body. -/
@[simp] theorem frameTrailer_requestFrame (s f : Byte) (a c : Half) :
    frameTrailer (requestFrame s f a c) = crc16 (requestBody s f a c) :=
  ofBytes_hiByte_loByte _

theorem frameTrailer_requestFrame_eq_crc16_take (s f : Byte) (a c : Half) :
    frameTrailer (requestFrame s f a c) = crc16 ((requestFrame s f a c).toList.take 6) := by
  rw [frameTrailer_requestFrame, requestFrame_take]

/-! ### The invariant of the block's record (R27, R44, R67) -/

/-- The invariant speaks of CRC_OUT, FRAME, three flags and the counter of draws only. -/
theorem BlockInv.congr {s t : State} (hs : BlockInv s) (hcrcOut : t.crcOut = s.crcOut) (hframe : t.frame = s.frame)
    (houtv : t.outv = s.outv) (hframev : t.framev = s.framev) (hnullcrc : t.nullcrc = s.nullcrc)
    (hdraws : t.draws = s.draws) : BlockInv t := by
  simpa only [BlockInv, FrameSealed, NothingSkipped, UnwrittenKeepsDraw, hcrcOut, hframe, houtv, hframev, hnullcrc,
    hdraws] using hs

/-- A reset establishes the invariant: nothing is marked written, and both contents are the new draw. -/
theorem blockInv_hostReset (c : Config) (s : State) : BlockInv (hostReset c s) :=
  ⟨nofun, rfl, s.draws, rfl, fun _ => rfl, fun _ => rfl⟩

theorem blockInv_setHostOps {s : State} (hs : BlockInv s) (ops : List HostOp) : BlockInv (setHostOps ops s) :=
  hs.congr rfl rfl rfl rfl rfl rfl

theorem blockInv_hostRead {s : State} (hs : BlockInv s) (idx : Byte) : BlockInv (hostRead idx s) :=
  hs.congr rfl rfl rfl rfl rfl rfl

theorem blockInv_raiseError {s : State} (hs : BlockInv s) (e : CmdError) : BlockInv (raiseError e s) := by
  rw [raiseError_eq]
  exact hs.congr rfl rfl rfl rfl rfl rfl

/-- CRC_READ marks CRC_OUT as written, so that nothing more is claimed of it. -/
theorem blockInv_crcReadEffect {s : State} (hs : BlockInv s) : BlockInv (crcReadEffect s) := by
  obtain ⟨hsealed, hnull, n, hdraws, -, hframe⟩ := hs
  exact ⟨hsealed, hnull, n, hdraws, nofun, hframe⟩

/-- A BUILD that is never skipped seals the frame that it marks valid. -/
theorem blockInv_buildEffect {c : Config} (hc : c.nullCrcSkip = false) (a : Half) {s : State} (hs : BlockInv s) :
    BlockInv (buildEffect c a s) := by
  rw [buildEffect_of_write (by simp [hc])]
  obtain ⟨-, -, n, hdraws, hcrcOut, -⟩ := hs
  exact ⟨fun _ => frameTrailer_requestFrame_eq_crc16_take .., rfl, n, hdraws, hcrcOut, nofun⟩

theorem blockInv_perform {c : Config} (hc : c.nullCrcSkip = false) (i : Instr) {s : State} (hs : BlockInv s) :
    BlockInv (perform c i s) := by
  cases i with
  | crcRead => exact blockInv_crcReadEffect hs
  | build a => exact blockInv_buildEffect hc a hs
  | _ => exact hs.congr rfl rfl rfl rfl rfl rfl

/-- Settles O17, by the five cases of a step: a reset establishes the invariant and each of the others keeps it. -/
theorem stepKeepsBlockInvariant : Obligations.StepKeepsBlockInvariant := by
  intro s t hs hstep
  obtain ⟨-, rfl⟩ | ⟨rest, -, rfl⟩ | ⟨idx, rest, -, rfl⟩ | ⟨w, rest, i, -, -, rfl⟩ | ⟨w, rest, e, -, -, rfl⟩ :=
    step_cases hstep
  · exact hs
  · exact blockInv_hostReset ..
  · exact blockInv_hostRead (blockInv_setHostOps hs rest) idx
  · exact blockInv_perform rfl i (blockInv_setHostOps hs rest)
  · exact blockInv_raiseError (blockInv_setHostOps hs rest) e

/-! ### The read port (20_memory.md R42, R43) -/

@[simp] theorem readPort_status (s : State) : readPort s 0x00 = statusWord s := rfl

@[simp] theorem readPort_crcOut (s : State) : readPort s 0x03 = s.crcOut := rfl

/-- From index 0x10 up the read port shows the cells of FRAME, and zero after the last. -/
theorem readPort_of_le (s : State) {idx : Byte} (h : 0x10 ≤ idx.toNat) :
    readPort s idx = ((s.frame.toList[idx.toNat - 0x10]?).getD 0).setWidth 16 := by
  unfold readPort
  split
  case h_8 => exact if_pos h
  all_goals omega

/-- The cell that the read port shows at index 0x10 + i, for a cell of FRAME (20_memory.md R42). -/
theorem readPort_frame (s : State) (i : Fin 8) :
    readPort s (0x10#8 + BitVec.ofNat 8 i.val) = s.frame[i].setWidth 16 := by
  have hidx : (0x10#8 + BitVec.ofNat 8 i.val).toNat = 0x10 + i.val := by
    have := i.isLt
    simp
    omega
  rw [readPort_of_le s (by omega), hidx]
  simp

/-! ### What a command leaves unchanged -/

/-- BUILD writes FRAME, FRAMEV and NULLCRC at most (R103, R104). -/
theorem buildEffect_eq (c : Config) (a : Half) (s : State) :
    buildEffect c a s = { s with
      frame := (buildEffect c a s).frame
      framev := (buildEffect c a s).framev
      nullcrc := (buildEffect c a s).nullcrc } := by
  obtain ⟨-, -, h⟩ | ⟨-, h⟩ := buildEffect_cases c a s <;> rw [h]

@[simp] theorem buildEffect_acc (c : Config) (a : Half) (s : State) : (buildEffect c a s).acc = s.acc := by
  rw [buildEffect_eq]
@[simp] theorem buildEffect_crcOut (c : Config) (a : Half) (s : State) : (buildEffect c a s).crcOut = s.crcOut := by
  rw [buildEffect_eq]
@[simp] theorem buildEffect_slave (c : Config) (a : Half) (s : State) : (buildEffect c a s).slave = s.slave := by
  rw [buildEffect_eq]
@[simp] theorem buildEffect_func (c : Config) (a : Half) (s : State) : (buildEffect c a s).func = s.func := by
  rw [buildEffect_eq]
@[simp] theorem buildEffect_count (c : Config) (a : Half) (s : State) : (buildEffect c a s).count = s.count := by
  rw [buildEffect_eq]
@[simp] theorem buildEffect_outv (c : Config) (a : Half) (s : State) : (buildEffect c a s).outv = s.outv := by
  rw [buildEffect_eq]
@[simp] theorem buildEffect_matched (c : Config) (a : Half) (s : State) : (buildEffect c a s).matched = s.matched := by
  rw [buildEffect_eq]
@[simp] theorem buildEffect_err (c : Config) (a : Half) (s : State) : (buildEffect c a s).err = s.err := by
  rw [buildEffect_eq]

section
variable {c : Config} {i : Instr} {s : State}

/-! Each register is named with the commands of its rule (R21 to R28); every other command leaves it. -/

theorem perform_acc_of_ne (hinit : i ≠ .crcInit) (hfeed : ∀ b, i ≠ .crcFeed b) : (perform c i s).acc = s.acc := by
  cases i with
  | crcInit => exact absurd rfl hinit
  | crcFeed b => exact absurd rfl (hfeed b)
  | build a => exact buildEffect_acc c a s
  | _ => rfl

theorem perform_crcOut_of_ne (h : i ≠ .crcRead) : (perform c i s).crcOut = s.crcOut := by
  cases i with
  | crcRead => exact absurd rfl h
  | build a => exact buildEffect_crcOut c a s
  | _ => rfl

theorem perform_outv_of_ne (h : i ≠ .crcRead) : (perform c i s).outv = s.outv := by
  cases i with
  | crcRead => exact absurd rfl h
  | build a => exact buildEffect_outv c a s
  | _ => rfl

theorem perform_matched_of_ne (h : ∀ v, i ≠ .crcCmp v) : (perform c i s).matched = s.matched := by
  cases i with
  | crcCmp v => exact absurd rfl (h v)
  | build a => exact buildEffect_matched c a s
  | _ => rfl

theorem perform_slave_of_ne (h : ∀ b, i ≠ .setSlave b) : (perform c i s).slave = s.slave := by
  cases i with
  | setSlave b => exact absurd rfl (h b)
  | build a => exact buildEffect_slave c a s
  | _ => rfl

theorem perform_func_of_ne (h : ∀ b, i ≠ .setFunc b) : (perform c i s).func = s.func := by
  cases i with
  | setFunc b => exact absurd rfl (h b)
  | build a => exact buildEffect_func c a s
  | _ => rfl

theorem perform_count_of_ne (h : ∀ v, i ≠ .setCount v) : (perform c i s).count = s.count := by
  cases i with
  | setCount v => exact absurd rfl (h v)
  | build a => exact buildEffect_count c a s
  | _ => rfl

theorem perform_frame_of_ne (h : ∀ a, i ≠ .build a) : (perform c i s).frame = s.frame := by
  cases i with
  | build a => exact absurd rfl (h a)
  | _ => rfl

theorem perform_framev_of_ne (h : ∀ a, i ≠ .build a) : (perform c i s).framev = s.framev := by
  cases i with
  | build a => exact absurd rfl (h a)
  | _ => rfl

theorem perform_nullcrc_of_ne (h : ∀ a, i ≠ .build a) : (perform c i s).nullcrc = s.nullcrc := by
  cases i with
  | build a => exact absurd rfl (h a)
  | _ => rfl

@[simp] theorem perform_err : (perform c i s).err = s.err := by
  cases i with
  | build a => exact buildEffect_err c a s
  | _ => rfl

end

/-! ### What a step leaves unchanged (R30) -/

section
variable {α : Type} {f : State → α} {s t : State}

/-- A register that no command outside `P` writes is changed by a step only through a reset or a command of `P`: reading, raising an
error and taking an operation touch the fields that `f` does not see. -/
theorem resets_or_issues_of_step_ne {P : Instr → Prop}
    (hf : ∀ s err ops ans, f { s with err := err, hostOps := ops, answers := ans } = f s)
    (hperform : ∀ i s, ¬ P i → f (perform Config.taken i s) = f s)
    (hstep : step s = .next t) (hne : f t ≠ f s) : Resets s ∨ ∃ i, P i ∧ Issues s i := by
  have hops (ops : List HostOp) : f (setHostOps ops s) = f s := hf s s.err ops s.answers
  obtain ⟨-, rfl⟩ | ⟨rest, hs, -⟩ | ⟨idx, rest, -, rfl⟩ | ⟨w, rest, i, hs, hd, rfl⟩ | ⟨w, rest, e, -, -, rfl⟩ :=
    step_cases hstep
  · exact absurd rfl hne
  · exact .inl ⟨rest, hs⟩
  · exact absurd (hf s s.err rest _) hne
  · refine .inr ⟨i, ?_, w, rest, hs, hd⟩
    by_contra hP
    exact hne ((hperform i _ hP).trans (hops rest))
  · rw [raiseError_eq] at hne
    exact absurd (hf s _ rest s.answers) hne

/-- The register of one command is changed by a step only through a reset or that command. -/
theorem resets_or_issues_command_of_step_ne {i₀ : Instr}
    (hf : ∀ s err ops ans, f { s with err := err, hostOps := ops, answers := ans } = f s)
    (hperform : ∀ i s, i ≠ i₀ → f (perform Config.taken i s) = f s)
    (hstep : step s = .next t) (hne : f t ≠ f s) : Resets s ∨ Issues s i₀ := by
  simpa using resets_or_issues_of_step_ne (P := (· = i₀)) hf hperform hstep hne

/-- The register of one mnemonic is changed by a step only through a reset or that mnemonic with some operand. -/
theorem resets_or_issues_operand_of_step_ne {β : Type} {m : β → Instr}
    (hf : ∀ s err ops ans, f { s with err := err, hostOps := ops, answers := ans } = f s)
    (hperform : ∀ i s, (∀ b, i ≠ m b) → f (perform Config.taken i s) = f s)
    (hstep : step s = .next t) (hne : f t ≠ f s) : Resets s ∨ ∃ b, Issues s (m b) := by
  simpa using resets_or_issues_of_step_ne (P := fun i => ∃ b, i = m b) hf (fun i s h => hperform i s (not_exists.1 h))
    hstep hne

end

/-- ACC is changed by a step only through a reset, CRC_INIT or CRC_FEED (R21). -/
theorem resets_or_issues_of_step_acc_ne {s t : State} (hstep : step s = .next t) (hne : t.acc ≠ s.acc) :
    Resets s ∨ Issues s .crcInit ∨ ∃ b, Issues s (.crcFeed b) := by
  simpa [or_and_right, exists_or] using
    resets_or_issues_of_step_ne (f := State.acc) (P := fun i => i = .crcInit ∨ ∃ b, i = .crcFeed b)
      (fun _ _ _ _ => rfl) (fun i s h => perform_acc_of_ne (not_or.1 h).1 (not_exists.1 (not_or.1 h).2)) hstep hne

/-- ERR is changed by a step only through a reset or a word that spells no command (R28). -/
theorem resets_or_issuesNoCommand_of_step_err_ne {s t : State} (hstep : step s = .next t) (hne : t.err ≠ s.err) :
    Resets s ∨ IssuesNoCommand s := by
  obtain ⟨-, rfl⟩ | ⟨rest, hs, -⟩ | ⟨idx, rest, -, rfl⟩ | ⟨w, rest, i, -, -, rfl⟩ | ⟨w, rest, e, hs, hd, -⟩ :=
    step_cases hstep
  · exact absurd rfl hne
  · exact .inl ⟨rest, hs⟩
  · exact absurd rfl hne
  · exact absurd perform_err hne
  · exact .inr ⟨w, rest, e, hs, hd⟩

/-- Settles O19: for each register the commands that write it, by the frame of a command, carried over the step. -/
theorem registersChangeOnlyByTheirCommands : Obligations.RegistersChangeOnlyByTheirCommands := by
  intro s t hstep
  refine ⟨resets_or_issues_of_step_acc_ne hstep,
    resets_or_issues_command_of_step_ne (f := State.crcOut) ?_ (fun _ _ => perform_crcOut_of_ne) hstep,
    resets_or_issues_operand_of_step_ne (f := State.slave) ?_ (fun _ _ => perform_slave_of_ne) hstep,
    resets_or_issues_operand_of_step_ne (f := State.func) ?_ (fun _ _ => perform_func_of_ne) hstep,
    resets_or_issues_operand_of_step_ne (f := State.count) ?_ (fun _ _ => perform_count_of_ne) hstep,
    resets_or_issues_operand_of_step_ne (f := State.frame) ?_ (fun _ _ => perform_frame_of_ne) hstep,
    resets_or_issues_command_of_step_ne (f := State.outv) ?_ (fun _ _ => perform_outv_of_ne) hstep,
    resets_or_issues_operand_of_step_ne (f := State.framev) ?_ (fun _ _ => perform_framev_of_ne) hstep,
    resets_or_issues_operand_of_step_ne (f := State.matched) ?_ (fun _ _ => perform_matched_of_ne) hstep,
    resets_or_issues_operand_of_step_ne (f := State.nullcrc) ?_ (fun _ _ => perform_nullcrc_of_ne) hstep,
    resets_or_issuesNoCommand_of_step_err_ne hstep⟩
  all_goals exact fun _ _ _ _ => rfl

/-! ### The flags (R27) -/

/-- STATUS from bit 0 up: OUTV, FRAMEV, MATCH, NULLCRC, ERRF, then zeros. -/
theorem getLsbD_statusWord (s : State) (k : Nat) :
    (statusWord s).getLsbD k = ([s.outv, s.framev, s.matched, s.nullcrc, errf s][k]?).getD false := by
  simp only [statusWord, BitVec.getLsbD_setWidth, BitVec.getLsbD_append, BitVec.getLsbD_ofBool]
  match k with
  | 0 | 1 | 2 | 3 | 4 => simp
  | k + 5 => simp

/-- A BUILD is skipped exactly when the configuration skips null CRCs and the CRC of its body is null (R104). -/
theorem buildEffect_framev_nullcrc (c : Config) (a : Half) (s : State) :
    if c.nullCrcSkip = true ∧ crc16 (requestBody s.slave s.func a s.count) = 0 then
      (buildEffect c a s).framev = false ∧ (buildEffect c a s).nullcrc = true
    else (buildEffect c a s).framev = true ∧ (buildEffect c a s).nullcrc = false := by
  rw [← frameTrailer_requestFrame]
  obtain ⟨hskip, hnull, h⟩ | ⟨hwrite, h⟩ := buildEffect_cases c a s <;> rw [h]
  · rw [if_pos ⟨hskip, hnull⟩]
    exact ⟨rfl, rfl⟩
  · rw [if_neg fun ⟨hskip, hnull⟩ => hwrite.elim (by simp [hskip]) (absurd hnull)]
    exact ⟨rfl, rfl⟩

theorem perform_outv_iff (c : Config) (i : Instr) (s : State) :
    (perform c i s).outv = true ↔ s.outv = true ∨ i = .crcRead := by
  by_cases h : i = .crcRead
  · subst h
    exact iff_of_true rfl (.inr rfl)
  · rw [perform_outv_of_ne h, or_iff_left h]

/-- Settles O20: each clause is the law of the operation it speaks of. -/
theorem flagsFollowTheirTable : Obligations.FlagsFollowTheirTable := by
  refine ⟨fun c i s => ?_, fun c h s => ?_, fun c a s => ?_, fun c w e s hd => ?_, fun c s => ⟨rfl, rfl, rfl, rfl, rfl⟩,
    fun s => ?_⟩
  · rw [issue_encode]
    exact ⟨perform_outv_iff c i s, perform_matched_of_ne,
      fun h => ⟨perform_framev_of_ne h, perform_nullcrc_of_ne h⟩⟩
  · rw [issue_encode]
    exact beq_iff_eq
  · rw [issue_encode]
    exact buildEffect_framev_nullcrc c a s
  · rw [issue_of_error hd, raiseError_eq]
    exact ⟨rfl, rfl, rfl, rfl⟩
  · have hbit (k : Nat) : (readPort s 0x00).getLsbD k =
        ([s.outv, s.framev, s.matched, s.nullcrc, errf s][k]?).getD false := getLsbD_statusWord s k
    have herrf : (readPort s 0x00).getLsbD 4 = errf s := hbit 4
    exact ⟨hbit 0, hbit 1, hbit 2, hbit 3, by rw [herrf, errf_iff],
      fun k hk => by rw [hbit, List.getElem?_eq_none hk, Option.getD_none]⟩

/-! ### What a reset draws (R22, R26) -/

/-- Settles O13: a reset answers the state of its own draw, and the read port shows the contents drawn. -/
theorem resetDrawsTheUnspecifiedFields : Obligations.ResetDrawsTheUnspecifiedFields := by
  intro s
  have hcell (i : Fin 8) : (hostReset Config.taken s).frame[i] = Config.frameDraw s.draws i := by simp
  exact ⟨hostReset Config.taken s, rfl, rfl, readPort_crcOut _, fun i => ⟨hcell i, by rw [readPort_frame, hcell]⟩, rfl⟩

end Sys2Proof.Machine

namespace Sys2Proof.Machine

/-! ### The order of the host's operations (20_memory.md R50) -/

theorem raiseError_setHostOps (e : CmdError) (s : State) (ops : List HostOp) :
    raiseError e (setHostOps ops s) = setHostOps ops (raiseError e s) := by
  rw [raiseError_eq, raiseError_eq]
  rfl

/-- No issued word reads or writes the operations the host has still to apply. -/
theorem issue_setHostOps (c : Config) (s : State) (w : Word) (ops : List HostOp) :
    issue c (setHostOps ops s) w = setHostOps ops (issue c s w) := by
  cases hd : decode w with
  | ok i => rw [issue_of_decode hd, issue_of_decode hd, perform_setHostOps]
  | error e => rw [issue_of_error hd, issue_of_error hd, raiseError_setHostOps]

/-- Every host operation completes in a state `t` that does not depend on the operations still to be applied, and leaves those as they
are. -/
theorem exists_applyHostOp_setHostOps (op : HostOp) (s : State) :
    ∃ t, ∀ ops, applyHostOp op (setHostOps ops s) = .next (setHostOps ops t) := by
  cases op with
  | reset => exact ⟨hostReset Config.taken s, fun _ => rfl⟩
  | issue w =>
    refine ⟨issue Config.taken s w, fun ops => ?_⟩
    rw [applyHostOp_issue, issue_setHostOps]
  | read idx => exact ⟨hostRead idx s, fun _ => rfl⟩

/-- The earlier operations lead to a state `t` that depends neither on the later ones nor on how many steps follow. -/
theorem exists_runSteps_length_add (earlier : List HostOp) (s : State) :
    ∃ t, ∀ (later : List HostOp) (k : Nat),
      runSteps (earlier.length + k) (setHostOps (earlier ++ later) s) = runSteps k (setHostOps later t) := by
  induction earlier generalizing s with
  | nil => exact ⟨s, fun later k => by rw [List.length_nil, Nat.zero_add, List.nil_append]⟩
  | cons op ops ih =>
    obtain ⟨u, hu⟩ := exists_applyHostOp_setHostOps op s
    obtain ⟨t, ht⟩ := ih u
    refine ⟨t, fun later k => ?_⟩
    have hstep : step (setHostOps (op :: ops ++ later) s) = .next (setHostOps (ops ++ later) u) := hu (ops ++ later)
    rw [List.length_cons, Nat.add_right_comm, runSteps_succ hstep, ht]

/-- Settles O25, by running the earlier operations before an empty queue and before the read with the later ones. -/
theorem readSeesEarlierOperationsAndNoLaterOne : Obligations.ReadSeesEarlierOperationsAndNoLaterOne := by
  intro earlier later idx s
  obtain ⟨t, ht⟩ := exists_runSteps_length_add earlier s
  have halone := ht [] 0
  rw [List.append_nil] at halone
  exact ⟨t, halone, ht (.read idx :: later) 1⟩

/-! ### The read port map (20_memory.md R42, R43) -/

@[simp] theorem readPort_err (s : State) : readPort s 0x01 = s.err.code.setWidth 16 := rfl
@[simp] theorem readPort_acc (s : State) : readPort s 0x02 = s.acc := rfl
@[simp] theorem readPort_slave (s : State) : readPort s 0x04 = s.slave.setWidth 16 := rfl
@[simp] theorem readPort_func (s : State) : readPort s 0x05 = s.func.setWidth 16 := rfl
@[simp] theorem readPort_count (s : State) : readPort s 0x06 = s.count := rfl

theorem errf_eq_decide (s : State) : errf s = decide (s.err ≠ .noError) := by
  rw [Bool.eq_iff_iff, errf_iff, decide_eq_true_iff]

/-- Settles O27: each index by its own law. -/
theorem readPortFollowsItsMap : Obligations.ReadPortFollowsItsMap := by
  intro s
  refine ⟨?_, readPort_err s, readPort_acc s, readPort_crcOut s, readPort_slave s, readPort_func s, readPort_count s,
    readPort_frame s⟩
  rw [readPort_status, statusWord, errf_eq_decide]

/-- The gap between COUNT and FRAME reads as zero. -/
theorem readPort_of_lt (s : State) {idx : Byte} (hlow : 0x07 ≤ idx.toNat) (hhigh : idx.toNat < 0x10) :
    readPort s idx = 0 := by
  unfold readPort
  split
  case h_8 => exact if_neg (Nat.not_le.2 hhigh)
  all_goals omega

/-- No cell stands behind the indices after the last cell of FRAME. -/
theorem readPort_of_frame_end_le (s : State) {idx : Byte} (h : 0x18 ≤ idx.toNat) : readPort s idx = 0 := by
  rw [readPort_of_le s (by omega), List.getElem?_eq_none (by rw [Vector.length_toList]; omega)]
  rfl

theorem readPort_of_unmapped (s : State) {idx : Byte}
    (h : (0x07 ≤ idx.toNat ∧ idx.toNat ≤ 0x0F) ∨ 0x18 ≤ idx.toNat) : readPort s idx = 0 := by
  obtain ⟨hlow, hhigh⟩ | hend := h
  · exact readPort_of_lt s hlow (by omega)
  · exact readPort_of_frame_end_le s hend

theorem step_hostApplies_read (idx : Byte) (s : State) :
    step (hostApplies (.read idx) s) = .next { s with answers := { idx := idx, value := readPort s idx } :: s.answers } :=
  rfl

/-- Settles O28: both ranges read zero, and the step of a read only answers what the read port shows. -/
theorem unmappedIndexReadsZero : Obligations.UnmappedIndexReadsZero := by
  intro s idx h
  have hzero := readPort_of_unmapped s h
  exact ⟨hzero, by rw [step_hostApplies_read, hzero]⟩

/-! ### What reads keep (20_memory.md R44) -/

/-- What the host has read is no part of what the read port shows. -/
@[simp] theorem readPort_hostRead (idx : Byte) (s : State) (idx' : Byte) :
    readPort (hostRead idx s) idx' = readPort s idx' := rfl

/-- The step of a command performs it under the configuration the spec takes. -/
theorem eq_perform_of_step_of_issues {s t : State} {i : Instr} (hstep : step s = .next t) (h : Issues s i) :
    ∃ rest, t = perform Config.taken i (setHostOps rest s) := by
  obtain ⟨w, rest, hs, hd⟩ := h
  rw [step_of_cons hs, applyHostOp_issue, issue_of_decode hd] at hstep
  cases hstep
  exact ⟨rest, rfl⟩

/-- A step that changes CRC_OUT and is no reset is a CRC_READ, which sets OUTV. -/
theorem crcOut_eq_of_step_of_outv_eq_false {s t : State} (hstep : step s = .next t) (hreset : ¬Resets s)
    (h : t.outv = false) : t.crcOut = s.crcOut := by
  by_contra hne
  have hread : Issues s .crcRead := (resets_or_issues_command_of_step_ne (f := State.crcOut) (fun _ _ _ _ => rfl)
    (fun _ _ => perform_crcOut_of_ne) hstep hne).resolve_left hreset
  obtain ⟨rest, rfl⟩ := eq_perform_of_step_of_issues hstep hread
  cases h

/-- A step that changes FRAME and is no reset is a BUILD, which sets FRAMEV under the configuration taken. -/
theorem frame_eq_of_step_of_framev_eq_false {s t : State} (hstep : step s = .next t) (hreset : ¬Resets s)
    (h : t.framev = false) : t.frame = s.frame := by
  by_contra hne
  obtain ⟨a, hbuild⟩ := (resets_or_issues_operand_of_step_ne (f := State.frame) (m := .build) (fun _ _ _ _ => rfl)
    (fun _ _ => perform_frame_of_ne) hstep hne).resolve_left hreset
  obtain ⟨rest, rfl⟩ := eq_perform_of_step_of_issues hstep hbuild
  cases h

/-- Settles O29: a read only adds to the answers, and CRC_OUT and FRAME change only where a flag tells it. -/
theorem readsHaveNoSideEffectAndRepeat : Obligations.ReadsHaveNoSideEffectAndRepeat := by
  refine ⟨fun s idx => ⟨hostRead idx s, step_hostApplies_read idx s, rfl, readPort_hostRead idx s⟩,
    fun s t hstep hreset => ⟨fun houtv => ?_, fun hframev i => ?_⟩⟩
  · rw [readPort_crcOut, readPort_crcOut, crcOut_eq_of_step_of_outv_eq_false hstep hreset houtv]
  · rw [readPort_frame, readPort_frame, frame_eq_of_step_of_framev_eq_false hstep hreset hframev]

end Sys2Proof.Machine

namespace Sys2Proof

/-! ### One word per command (R62, R65, R69) -/

/-- Settles O1: the word of a command selects the command's row, and its IMM field carries the operand. -/
theorem decodeOfEncodeIsTheCommand : Obligations.DecodeOfEncodeIsTheCommand := decode_encode

/-- A word decodes to a command exactly when it selects the command's row and carries its operand (R62, R65). -/
theorem decode_eq_ok_iff {w : Word} {i : Instr} :
    decode w = .ok i ↔ i.mnemonic.selectedBy w = true ∧ i = i.mnemonic.command (immField w) := by
  refine ⟨selectedBy_of_decode, fun ⟨hsel, hi⟩ => ?_⟩
  rw [decode_of_selectedBy hsel, ← hi]

/-- A halfword whose high byte is zero is its low byte, zero-extended. -/
theorem setWidth_byteOperand {imm : Half} (h : Machine.hiByte imm = 0) : (byteOperand imm).setWidth 16 = imm :=
  Machine.half_ext (by rw [Machine.hiByte_setWidth, h]) (Machine.loByte_setWidth _)

/-- The bits of IMM that form B reserves are its high byte (R61). -/
theorem hiByte_of_reserved {imm : Half} (h : imm &&& immField (Form.mask .B) = 0) : Machine.hiByte imm = 0 := by
  have hhi : Machine.hiByte (imm &&& immField (Form.mask .B)) = Machine.hiByte imm := by
    rw [Machine.hiByte, BitVec.extractLsb'_and]
    exact BitVec.and_allOnes
  rw [← hhi, h]
  rfl

/-- The command of a row keeps all of an IMM field whose reserved bits are zero. -/
theorem imm_command {m : Mnemonic} {imm : Half} (h : imm &&& immField m.mask = 0) : (m.command imm).imm = imm := by
  cases m with
  | nop | crcInit | crcRead => exact (BitVec.and_allOnes.symm.trans h).symm
  | crcFeed | setSlave | setFunc => exact setWidth_byteOperand (hiByte_of_reserved h)
  | crcCmp | setCount | build => rfl

/-- Settles O2: the fields of a word that selects a row are the row's opcode, zero and the operand, as in the encoding. -/
theorem decodedWordIsTheEncodingOfItsCommand : Obligations.DecodedWordIsTheEncodingOfItsCommand := by
  intro w i hd
  obtain ⟨hsel, hi⟩ := selectedBy_of_decode hd
  obtain ⟨hop, hrsv, hreserved⟩ := (selectedBy_iff _ w).1 hsel
  have himm : i.imm = immField w := by rw [hi, imm_command hreserved]
  rw [word_eq_iff, opField_encode, rsvField_encode, immField_encode]
  exact ⟨hop.symm, hrsv.symm, himm⟩

/-! ### The opcode map (R62) -/

theorem selectedBy_iff_and_mask {m : Mnemonic} {w : Word} : m.selectedBy w = true ↔ w &&& m.mask = m.pattern :=
  beq_iff_eq

theorem byteOperand_immField (w : Word) : byteOperand (immField w) = w.extractLsb' 0 8 := by
  refine BitVec.eq_of_getLsbD_eq fun k hk => ?_
  simp [byteOperand, immField, hk]

/-! The printed match of each row. -/

theorem pattern_nop : Mnemonic.pattern .nop = 0x00000000#32 := by decide
theorem pattern_crcInit : Mnemonic.pattern .crcInit = 0x01000000#32 := by decide
theorem pattern_crcFeed : Mnemonic.pattern .crcFeed = 0x02000000#32 := by decide
theorem pattern_crcRead : Mnemonic.pattern .crcRead = 0x03000000#32 := by decide
theorem pattern_crcCmp : Mnemonic.pattern .crcCmp = 0x04000000#32 := by decide
theorem pattern_setSlave : Mnemonic.pattern .setSlave = 0x10000000#32 := by decide
theorem pattern_setFunc : Mnemonic.pattern .setFunc = 0x11000000#32 := by decide
theorem pattern_setCount : Mnemonic.pattern .setCount = 0x12000000#32 := by decide
theorem pattern_build : Mnemonic.pattern .build = 0x13000000#32 := by decide

section
variable {w pattern : Word} {i : Instr} (hpattern : i.mnemonic.pattern = pattern)
include hpattern

/-- A row of form N: the mask covers the whole word (R61). -/
theorem decode_eq_ok_iff_of_form_N (hform : i.mnemonic.form = .N) (hcommand : i = i.mnemonic.command (immField w)) :
    decode w = .ok i ↔ w &&& 0xFFFFFFFF = pattern := by
  rw [decode_eq_ok_iff, selectedBy_iff_and_mask, and_iff_left hcommand, Mnemonic.mask, hform, hpattern, Form.mask]

/-- A row of form B: the operand is the low byte of the word (R61). -/
theorem decode_eq_ok_iff_of_form_B (hform : i.mnemonic.form = .B) {b : Byte}
    (hcommand : i = i.mnemonic.command (immField w) ↔ b = byteOperand (immField w)) :
    decode w = .ok i ↔ w &&& 0xFFFFFF00 = pattern ∧ b = w.extractLsb' 0 8 := by
  rw [decode_eq_ok_iff, selectedBy_iff_and_mask, hcommand, byteOperand_immField, Mnemonic.mask, hform, hpattern, Form.mask]

/-- A row of form H: the operand is the low half of the word (R61). -/
theorem decode_eq_ok_iff_of_form_H (hform : i.mnemonic.form = .H) {h : Half}
    (hcommand : i = i.mnemonic.command (immField w) ↔ h = immField w) :
    decode w = .ok i ↔ w &&& 0xFFFF0000 = pattern ∧ h = w.extractLsb' 0 16 := by
  rw [decode_eq_ok_iff, selectedBy_iff_and_mask, hcommand, immField, Mnemonic.mask, hform, hpattern, Form.mask]

end

/-- Settles O3: each row by the law of its form, with its printed match. -/
theorem opcodeMapRowByRow : Obligations.OpcodeMapRowByRow := fun _ =>
  ⟨decode_eq_ok_iff_of_form_N (i := .nop) pattern_nop rfl rfl,
    decode_eq_ok_iff_of_form_N (i := .crcInit) pattern_crcInit rfl rfl,
    fun b => decode_eq_ok_iff_of_form_B (i := .crcFeed b) pattern_crcFeed rfl (Instr.crcFeed.injEq ..).to_iff,
    decode_eq_ok_iff_of_form_N (i := .crcRead) pattern_crcRead rfl rfl,
    fun h => decode_eq_ok_iff_of_form_H (i := .crcCmp h) pattern_crcCmp rfl (Instr.crcCmp.injEq ..).to_iff,
    fun b => decode_eq_ok_iff_of_form_B (i := .setSlave b) pattern_setSlave rfl (Instr.setSlave.injEq ..).to_iff,
    fun b => decode_eq_ok_iff_of_form_B (i := .setFunc b) pattern_setFunc rfl (Instr.setFunc.injEq ..).to_iff,
    fun h => decode_eq_ok_iff_of_form_H (i := .setCount h) pattern_setCount rfl (Instr.setCount.injEq ..).to_iff,
    fun a => decode_eq_ok_iff_of_form_H (i := .build a) pattern_build rfl (Instr.build.injEq ..).to_iff⟩

/-- No two rows have the same opcode. -/
theorem op_injective : Function.Injective Mnemonic.op := fun m n h =>
  Option.some.inj (by rw [← rowOfOp_op m, h, rowOfOp_op])

theorem wordWf_iff {w : Word} : wordWf w = true ↔ ∃ m : Mnemonic, m.selectedBy w = true := by
  simp [wordWf]

/-- Settles O4: the rows have different opcodes, and a word decodes to the command of the row that it selects. -/
theorem decodesExactlyWhenOneRowIsSelected : Obligations.DecodesExactlyWhenOneRowIsSelected := by
  refine ⟨fun w m n hm hn => ?_, fun w => ?_⟩
  · obtain ⟨hopm, -, -⟩ := (selectedBy_iff m w).1 hm
    obtain ⟨hopn, -, -⟩ := (selectedBy_iff n w).1 hn
    exact op_injective (hopm.symm.trans hopn)
  · rw [wordWf_iff]
    exact ⟨fun ⟨i, hd⟩ => ⟨i.mnemonic, (selectedBy_of_decode hd).1⟩, fun ⟨m, hm⟩ => ⟨_, decode_of_selectedBy hm⟩⟩

/-- Settles O8: each word is read by the opcode map. -/
theorem sampleWordsDecode : Obligations.SampleWordsDecode := ⟨rfl, rfl, rfl, rfl, rfl, rfl, rfl⟩

end Sys2Proof

namespace Sys2Proof.Machine

/-! ### Words that spell no command (R63, R64, R131) -/

/-- Issuing a word that does not decode writes ERR, if that holds no error, and nothing else. -/
theorem raisesOnly_of_decode {w : Word} {e : CmdError} (h : decode w = .error e) : RaisesOnly w (errCodeOf e) := by
  intro s
  rw [step_hostApplies, applyHostOp_issue, issue_of_error h, raiseError_eq]

/-- Settles O5: no row has such an opcode, and the decoder tests the opcode first. -/
theorem unassignedOpcodeRaisesIllegalOp : Obligations.UnassignedOpcodeRaisesIllegalOp := by
  intro w hop
  have hd : decode w = .error .illegalOp := (decode_eq_illegalOp_iff w).2 ((rowOfOp_eq_none_iff _).2 hop)
  exact ⟨hd, raisesOnly_of_decode hd⟩

theorem decode_eq_reservedNz_of_ne {w : Word} {m : Mnemonic} (hop : opField w = m.op) (hne : w &&& m.mask ≠ m.pattern) :
    decode w = .error .reservedNz :=
  (decode_eq_reservedNz_iff w).2 ⟨m, hop, beq_false_of_ne hne⟩

/-- Settles O6: the opcode has a row, which the word does not select. -/
theorem reservedBitsRaiseReservedNz : Obligations.ReservedBitsRaiseReservedNz := by
  refine ⟨fun w m hop hne => ?_, raisesOnly_of_decode (e := .reservedNz) rfl, raisesOnly_of_decode (e := .reservedNz) rfl⟩
  have hd := decode_eq_reservedNz_of_ne hop hne
  exact ⟨hd, raisesOnly_of_decode hd⟩

/-! ### The step of an issued word (R29, R65) -/

theorem applyHostOp_issue_of_decode {w : Word} {i : Instr} (h : decode w = .ok i) (s : State) :
    applyHostOp (.issue w) s = exec i s := by
  rw [applyHostOp_issue, issue_of_decode h, exec_eq_perform]

/-- A 32-bit word given as a number is issued as it is. -/
theorem withFetchWord_toNat (s : State) (w : Word) : s.withFetchWord 32 w.toNat = hostApplies (.issue w) s := by
  rw [State.withFetchWord, queueWordFirst, Nat.mod_eq_of_lt w.isLt, BitVec.ofNat_toNat, BitVec.setWidth_eq, hostApplies]

/-- Settles O21: a step applies the first operation, and issuing a word that decodes executes its command. -/
theorem stepRunsTheDecodedCommand : Obligations.StepRunsTheDecodedCommand := by
  refine ⟨fun s w rest i hs hd => ?_, fun s w i hd => ?_⟩
  · rw [step_of_cons hs, applyHostOp_issue_of_decode hd, setHostOps]
  · rw [withFetchWord_toNat, step_hostApplies, applyHostOp_issue_of_decode hd]

/-! ### The request frame (R67) -/

/-- The trailer of a request frame is the accumulator of its body, the low byte first. -/
theorem requestFrame_toList (s f : Byte) (a c : Half) :
    (requestFrame s f a c).toList =
      requestBody s f a c ++ [loByte (crcAcc (requestBody s f a c)), hiByte (crcAcc (requestBody s f a c))] := by
  rw [← hiByte_swap16 (crcAcc _), ← loByte_swap16 (crcAcc _), ← crc16_eq]
  rfl

/-- Settles O42: the bytes as the frame lists them, the CRC read back from the last two cells, and the frame of the example. -/
theorem requestFrameHasEightStatedBytes : Obligations.RequestFrameHasEightStatedBytes :=
  ⟨fun s f a c => ⟨requestFrame_toList s f a c, frameTrailer_requestFrame_eq_crc16_take s f a c⟩, by decide +kernel⟩

/-! ### Numerals as operands (R69) -/

theorem value_lt_of_fitsByte {n : Numeral} (h : n.fitsByte = true) : n.value < 2 ^ 8 := by
  have hle : n.value ≤ 255 := of_decide_eq_true (Bool.and_eq_true_iff.1 h).2
  omega

theorem value_lt_of_fitsHalf {n : Numeral} (h : n.fitsHalf = true) : n.value < 2 ^ 16 := by
  have hle : n.value ≤ 65535 := of_decide_eq_true (Bool.and_eq_true_iff.1 h).2
  omega

/-- The byte of a numeral that fits one loses nothing. -/
theorem setWidth_numeralByte {n : Numeral} (h : n.fitsByte = true) : (numeralByte n).setWidth 16 = numeralHalf n :=
  BitVec.setWidth_ofNat_of_le_of_lt (by decide) (value_lt_of_fitsByte h)

theorem toNat_numeralByte {n : Numeral} (h : n.fitsByte = true) : (numeralByte n).toNat = n.value :=
  (BitVec.toNat_ofNat ..).trans (Nat.mod_eq_of_lt (value_lt_of_fitsByte h))

/-- Two bytes in transmission order are one number, the first in the high bits (R68, R70). -/
theorem ofBytes_numeralByte {hi lo : Numeral} (hhi : hi.fitsByte = true) (hlo : lo.fitsByte = true) :
    ofBytes (numeralByte hi) (numeralByte lo) = BitVec.ofNat 16 ((hi.value <<< 8) ||| lo.value) := by
  rw [← toNat_numeralByte hhi, ← toNat_numeralByte hlo, ← BitVec.toNat_append, BitVec.ofNat_toNat]
  exact (BitVec.setWidth_eq _).symm

/-- The number of two bytes that fit is a halfword. -/
theorem value_or_value_lt {hi lo : Numeral} (hhi : hi.fitsByte = true) (hlo : lo.fitsByte = true) :
    (hi.value <<< 8) ||| lo.value < 2 ^ 16 :=
  Nat.or_lt_two_pow (Nat.shiftLeft_lt (value_lt_of_fitsByte hhi)) ((value_lt_of_fitsByte hlo).trans (by decide))

section
variable {i : Instr} {pattern : Word} (hpattern : i.mnemonic.pattern = pattern)
include hpattern

/-- The word of a command whose operand is spelled by a number: `(OP << 24) OR operand` (R69). -/
theorem encode_of_imm_eq_ofNat {v : Nat} (himm : i.imm = BitVec.ofNat 16 v) (hv : v < 2 ^ 16) :
    encode i = pattern ||| BitVec.ofNat 32 v := by
  rw [encode, himm, BitVec.setWidth_ofNat_of_le_of_lt (by decide) hv, ← hpattern, Mnemonic.pattern]

theorem encode_of_imm_eq_numeralByte {n : Numeral} (h : n.fitsByte = true)
    (himm : i.imm = (numeralByte n).setWidth 16) : encode i = pattern ||| BitVec.ofNat 32 n.value :=
  encode_of_imm_eq_ofNat hpattern (himm.trans (setWidth_numeralByte h)) ((value_lt_of_fitsByte h).trans (by decide))

theorem encode_of_imm_eq_numeralHalf {n : Numeral} (h : n.fitsHalf = true)
    (himm : i.imm = numeralHalf n) : encode i = pattern ||| BitVec.ofNat 32 n.value :=
  encode_of_imm_eq_ofNat hpattern himm (value_lt_of_fitsHalf h)

end

/-! ### Lines of one command (R69) -/

theorem assemble_of_wf {line : AsmLine} (h : line.wf = true) : assemble line = some ((lineCommands line).map encode) :=
  if_pos h

theorem assemble_of_not_wf {line : AsmLine} (h : line.wf = false) : assemble line = none :=
  if_neg (by rw [h]; decide)

/-- An operand that fits its form has zeros in the bits that the form reserves, and fits a halfword. -/
theorem numeral_of_accepts {m : Mnemonic} {n : Numeral} (h : m.form.accepts (some n) = true) :
    numeralHalf n &&& immField m.mask = 0 ∧ n.value < 2 ^ 16 := by
  unfold Mnemonic.mask
  cases hform : m.form with
  | N => rw [hform] at h; cases h
  | B =>
    rw [hform] at h
    rw [← setWidth_numeralByte h]
    exact ⟨Laws.ReservedBitsZero.byte_operand_reserved _, (value_lt_of_fitsByte h).trans (by decide)⟩
  | H =>
    rw [hform] at h
    exact ⟨Laws.ReservedBitsZero.half_operand_reserved _, value_lt_of_fitsHalf h⟩

theorem assemble_command_of_accepts {m : Mnemonic} {n : Numeral} (h : m.form.accepts (some n) = true) :
    assemble (.command m (some n)) = some [(m.op.setWidth 32 <<< 24) ||| BitVec.ofNat 32 n.value] := by
  obtain ⟨hreserved, hv⟩ := numeral_of_accepts h
  have hpattern : (m.command (numeralHalf n)).mnemonic.pattern = m.op.setWidth 32 <<< 24 := by
    rw [mnemonic_command, Mnemonic.pattern]
  rw [assemble_of_wf (line := .command m (some n)) h, lineCommands, operandImm, List.map_cons, List.map_nil,
    encode_of_imm_eq_ofNat hpattern (imm_command hreserved) hv]

/-- The bound of a form's operand decides whether the line of a numeral is encoded or refused. -/
theorem assemble_command_eq_ite {m : Mnemonic} {n : Numeral} {bound : Nat}
    (h : m.form.accepts (some n) = decide (n.value ≤ bound)) :
    assemble (.command m (some n)) =
      if n.value ≤ bound then some [(m.op.setWidth 32 <<< 24) ||| BitVec.ofNat 32 n.value] else none := by
  split
  case isTrue hv => exact assemble_command_of_accepts (h.trans (decide_eq_true hv))
  case isFalse hv => exact assemble_of_not_wf (h.trans (decide_eq_false hv))

/-- Settles O56: the form of the mnemonic says what operand fits, and an operand that fits is OR'ed below the opcode. -/
theorem assemblerEncodesOrRefusesACommand : Obligations.AssemblerEncodesOrRefusesACommand := by
  refine ⟨fun m hform => ?_, fun m n hform => ?_, fun m hform => ?_, fun m n hwf hform => ?_, fun m n hwf hform => ?_,
    by decide +kernel, by decide +kernel, by decide +kernel, by decide +kernel⟩
  · cases m with
    | nop | crcInit | crcRead => rfl
    | _ => cases hform
  · refine assemble_of_not_wf (?_ : m.form.accepts (some n) = false)
    rw [hform, Form.accepts]
  · refine assemble_of_not_wf (?_ : m.form.accepts none = false)
    cases h : m.form with
    | N => exact absurd h hform
    | B | H => rfl
  · refine assemble_command_eq_ite ?_
    rw [hform, Form.accepts, Numeral.fitsByte, hwf, Bool.true_and]
  · refine assemble_command_eq_ite ?_
    rw [hform, Form.accepts, Numeral.fitsHalf, hwf, Bool.true_and]

/-! ### Pseudo-instructions (R70) -/

theorem encode_crcInit : encode .crcInit = 0x01000000#32 := by decide

theorem encode_crcRead : encode .crcRead = 0x03000000#32 := by decide

theorem encode_crcFeed_numeralByte {n : Numeral} (h : n.fitsByte = true) :
    encode (.crcFeed (numeralByte n)) = 0x02000000#32 ||| BitVec.ofNat 32 n.value :=
  encode_of_imm_eq_numeralByte (i := .crcFeed (numeralByte n)) pattern_crcFeed h rfl

/-- The words that feed the bytes of a list of operands. -/
theorem map_encode_crcFeed {ns : List Numeral} (h : ∀ n ∈ ns, n.fitsByte = true) :
    ((ns.map numeralByte).map Instr.crcFeed).map encode = ns.map (fun n => 0x02000000#32 ||| BitVec.ofNat 32 n.value) := by
  rw [List.map_map, List.map_map]
  exact List.map_congr_left fun n hn => encode_crcFeed_numeralByte (h n hn)

theorem assemble_crc16 {bs : List Numeral} (h : ∀ b ∈ bs, b.fitsByte = true) :
    assemble (.crc16 bs) =
      some (0x01000000#32 :: (bs.map (fun b => 0x02000000#32 ||| BitVec.ofNat 32 b.value) ++ [0x03000000#32])) := by
  rw [assemble_of_wf (line := .crc16 bs) (List.all_eq_true.2 h), lineCommands, crc16Macro, List.map_cons,
    List.map_append, map_encode_crcFeed h, List.map_cons, List.map_nil, encode_crcInit, encode_crcRead]

theorem assemble_request {s f a c : Numeral} (hs : s.fitsByte = true) (hf : f.fitsByte = true)
    (ha : a.fitsHalf = true) (hc : c.fitsHalf = true) :
    assemble (.request s f a c) =
      some [0x10000000#32 ||| BitVec.ofNat 32 s.value, 0x11000000#32 ||| BitVec.ofNat 32 f.value,
        0x12000000#32 ||| BitVec.ofNat 32 c.value, 0x13000000#32 ||| BitVec.ofNat 32 a.value] := by
  have hslave := encode_of_imm_eq_numeralByte (i := .setSlave (numeralByte s)) pattern_setSlave hs rfl
  have hfunc := encode_of_imm_eq_numeralByte (i := .setFunc (numeralByte f)) pattern_setFunc hf rfl
  have hcount := encode_of_imm_eq_numeralHalf (i := .setCount (numeralHalf c)) pattern_setCount hc rfl
  have hbuild := encode_of_imm_eq_numeralHalf (i := .build (numeralHalf a)) pattern_build ha rfl
  rw [assemble_of_wf (by simp [AsmLine.wf, hs, hf, ha, hc]), lineCommands, requestMacro, ← hslave, ← hfunc, ← hcount,
    ← hbuild]
  rfl

theorem encode_crcCmp_ofBytes {hi lo : Numeral} (hhi : hi.fitsByte = true) (hlo : lo.fitsByte = true) :
    encode (.crcCmp (ofBytes (numeralByte hi) (numeralByte lo))) =
      0x04000000#32 ||| BitVec.ofNat 32 ((hi.value <<< 8) ||| lo.value) :=
  encode_of_imm_eq_ofNat (i := .crcCmp (ofBytes (numeralByte hi) (numeralByte lo))) pattern_crcCmp
    (ofBytes_numeralByte hhi hlo) (value_or_value_lt hhi hlo)

/-- The commands of a CHECK: the last two bytes are the trailer. -/
theorem checkMacro_append (p : List Byte) (hi lo : Byte) :
    checkMacro (p ++ [hi, lo]) = .crcInit :: (p.map .crcFeed ++ [.crcCmp (ofBytes hi lo)]) := by
  rw [checkMacro, payloadOf_append, trailerOf_append]

theorem assemble_check {rs : List Numeral} {hi lo : Numeral} (h : ∀ r ∈ rs ++ [hi, lo], r.fitsByte = true) :
    assemble (.check (rs ++ [hi, lo])) =
      some (0x01000000#32 :: (rs.map (fun r => 0x02000000#32 ||| BitVec.ofNat 32 r.value) ++
        [0x04000000#32 ||| BitVec.ofNat 32 ((hi.value <<< 8) ||| lo.value)])) := by
  have hwf : (AsmLine.check (rs ++ [hi, lo])).wf = true :=
    Bool.and_eq_true_iff.2 ⟨decide_eq_true (by simp), List.all_eq_true.2 h⟩
  have hrs : ∀ r ∈ rs, r.fitsByte = true := fun r hr => h r (List.mem_append_left _ hr)
  have hcmp := encode_crcCmp_ofBytes (h hi (by simp)) (h lo (by simp))
  rw [assemble_of_wf hwf, lineCommands, List.map_append, List.map_cons, List.map_cons, List.map_nil, checkMacro_append,
    List.map_cons, List.map_append, map_encode_crcFeed hrs, List.map_cons, List.map_nil, encode_crcInit, hcmp]

/-- A CHECK has at least the two bytes of a trailer. -/
theorem assemble_check_of_length_lt {rs : List Numeral} (h : rs.length < 2) : assemble (.check rs) = none :=
  assemble_of_not_wf (by rw [AsmLine.wf, decide_eq_false (Nat.not_le.2 h), Bool.false_and])

/-- Settles O57: the expansion of each pseudo-instruction, word by word, and the refusal of a short CHECK. -/
theorem pseudoInstructionsExpandExactly : Obligations.PseudoInstructionsExpandExactly :=
  ⟨fun _ => assemble_crc16, fun _ _ _ _ => assemble_request, fun _ _ _ => assemble_check,
    fun _ => assemble_check_of_length_lt⟩

end Sys2Proof.Machine

namespace Sys2Proof.Machine

/-! ### The checksum functions as the rules write them (R80 to R82) -/

theorem getLsbD_15_ushiftRight_one (a : Half) : (a >>> 1).getLsbD 15 = false :=
  (BitVec.getLsbD_ushiftRight ..).trans (BitVec.getLsbD_of_ge _ _ (by decide))

/-- Settles O30: the iteration by the bit shifted out, and the XOR of a byte reaches the low eight bits only. -/
theorem crcByteIsEightShiftIterations : Obligations.CrcByteIsEightShiftIterations :=
  ⟨fun _ => crcBit_of_odd, fun _ => crcBit_of_even, getLsbD_15_ushiftRight_one,
    fun a b => ⟨rfl, by simp, by simp⟩⟩

/-- Settles O31: the fold of the bytes, one more at its end. -/
theorem accumulatorTakesTheBytesInOrder : Obligations.AccumulatorTakesTheBytesInOrder :=
  ⟨rfl, fun _ _ => crcFrom_append ..⟩

/-! ### The shift iteration and the byte step are linear over GF(2) (R80, R81, R93) -/

/-- What a shift iteration XORs into the shifted value: the polynomial where the bit shifted out was 1, nothing where it was 0. -/
def crcFeedback (shiftedOut : Bool) : Half := if shiftedOut then crcPoly else 0

theorem crcFeedback_xor : ∀ x y : Bool, crcFeedback (x ^^ y) = crcFeedback x ^^^ crcFeedback y := by decide

/-- Bit 15 of the polynomial is 1, so that the feedback keeps the bit shifted out. -/
theorem getLsbD_15_crcFeedback : ∀ x : Bool, (crcFeedback x).getLsbD 15 = x := by decide

theorem crcBit_eq_xor_crcFeedback (a : Half) : crcBit a = (a >>> 1) ^^^ crcFeedback (a.getLsbD 0) := by
  cases h : a.getLsbD 0 with
  | true => exact crcBit_of_odd h
  | false => exact (crcBit_of_even h).trans BitVec.xor_zero.symm

theorem crcBit_xor (a a' : Half) : crcBit (a ^^^ a') = crcBit a ^^^ crcBit a' := by
  simp only [crcBit_eq_xor_crcFeedback, BitVec.ushiftRight_xor_distrib, BitVec.getLsbD_xor, crcFeedback_xor]
  ac_rfl

theorem crcBits_xor (n : Nat) (a a' : Half) : crcBits n (a ^^^ a') = crcBits n a ^^^ crcBits n a' := by
  induction n generalizing a a' with
  | zero => rfl
  | succ n ih => rw [crcBits_succ, crcBit_xor, ih, crcBits_succ, crcBits_succ]

theorem crcByte_xor (a a' : Half) (b b' : Byte) :
    crcByte (a ^^^ a') (b ^^^ b') = crcByte a b ^^^ crcByte a' b' := by
  rw [crcByte_eq, crcByte_eq, crcByte_eq, ← crcBits_xor, BitVec.setWidth_xor]
  ac_rfl

/-- Settles O33, from the linearity of the shift iteration: the feedback is linear in the bit shifted out. -/
theorem crcByteIsLinear : Obligations.CrcByteIsLinear := crcByte_xor

/-! ### Both steps are one-to-one in the accumulator (R93) -/

/-- The shift leaves bit 15 empty, so that bit 15 of the result is the feedback's. -/
theorem getLsbD_15_crcBit (a : Half) : (crcBit a).getLsbD 15 = a.getLsbD 0 := by
  rw [crcBit_eq_xor_crcFeedback, BitVec.getLsbD_xor, getLsbD_15_ushiftRight_one, getLsbD_15_crcFeedback, Bool.false_xor]

/-- Bit 15 gives back the bit shifted out, and then the feedback can be taken off the shifted value. -/
theorem crcBit_injective : Function.Injective crcBit := by
  intro a a' h
  have hbit : a.getLsbD 0 = a'.getLsbD 0 := by rw [← getLsbD_15_crcBit, h, getLsbD_15_crcBit]
  rw [crcBit_eq_xor_crcFeedback, crcBit_eq_xor_crcFeedback, hbit, BitVec.xor_left_inj] at h
  refine BitVec.eq_of_getLsbD_eq fun k _ => ?_
  cases k with
  | zero => exact hbit
  | succ k => rw [Nat.add_comm, ← BitVec.getLsbD_ushiftRight, h, BitVec.getLsbD_ushiftRight]

theorem crcBits_injective (n : Nat) : Function.Injective (crcBits n) := by
  induction n with
  | zero => exact Function.injective_id
  | succ n ih => exact ih.comp crcBit_injective

theorem crcByte_left_injective (b : Byte) : Function.Injective (crcByte · b) := fun _ _ h =>
  (BitVec.xor_left_inj _).1 (crcBits_injective 8 h)

theorem crcByte_right_injective (a : Half) : Function.Injective (crcByte a) := fun b b' h => by
  have hlow : b.setWidth 16 = b'.setWidth 16 := (BitVec.xor_right_inj a).1 (crcBits_injective 8 h)
  rw [← loByte_setWidth b, hlow, loByte_setWidth]

theorem crcFrom_injective (data : List Byte) : Function.Injective (crcFrom · data) := by
  induction data with
  | nil => exact Function.injective_id
  | cons b data ih => exact ih.comp (crcByte_left_injective b)

/-- Settles O34: bit 15 of a shift iteration is the bit shifted out, so that no step loses anything of the accumulator. -/
theorem crcStepsAreOneToOne : Obligations.CrcStepsAreOneToOne :=
  ⟨getLsbD_15_crcBit, fun _ _ h => crcBit_injective h, fun b _ _ h => crcByte_left_injective b h⟩

/-! ### The swap (R83, R84) -/

theorem swap16_swap16 (v : Half) : swap16 (swap16 v) = v := half_ext (by simp) (by simp)

theorem swap16_injective : Function.Injective swap16 := Function.Involutive.injective swap16_swap16

theorem swap16_xor (v w : Half) : swap16 (v ^^^ w) = swap16 v ^^^ swap16 w := half_ext (by simp) (by simp)

/-- Settles O32: the swap exchanges the two bytes, and the two vectors are computed. -/
theorem crcIsTheSwappedAccumulator : Obligations.CrcIsTheSwappedAccumulator :=
  ⟨fun v => ⟨rfl, swap16_swap16 v⟩, fun data => ⟨crc16_eq data, hiByte_swap16 _, loByte_swap16 _⟩, by decide,
    by decide +kernel⟩

/-! ### Flipped bits (R93) -/

theorem crcFrom_zipWith_xor {p q : List Byte} (h : p.length = q.length) (a a' : Half) :
    crcFrom (a ^^^ a') (List.zipWith (· ^^^ ·) p q) = crcFrom a p ^^^ crcFrom a' q := by
  induction p generalizing q a a' with
  | nil =>
    cases q with
    | nil => rfl
    | cons c q => cases h
  | cons b p ih =>
    cases q with
    | nil => cases h
    | cons c q => rw [List.zipWith_cons_cons, crcFrom_cons, crcByte_xor, ih (Nat.succ.inj h), crcFrom_cons, crcFrom_cons]

/-- The change of the CRC under flips is the swapped accumulator of the flips alone, from zero. -/
theorem crc16_zipWith_xor {p flips : List Byte} (h : p.length = flips.length) :
    crc16 (List.zipWith (· ^^^ ·) p flips) ^^^ crc16 p = swap16 (crcFrom 0#16 flips) := by
  have hacc : crcAcc (List.zipWith (· ^^^ ·) p flips) = crcAcc p ^^^ crcFrom 0#16 flips := by
    rw [crcAcc_eq, crcAcc_eq, ← crcFrom_zipWith_xor h, BitVec.xor_zero]
  rw [crc16_eq, crc16_eq, ← swap16_xor, hacc, BitVec.xor_comm, ← BitVec.xor_assoc, BitVec.xor_self, BitVec.zero_xor]

/-- Settles O35: both sides are the swapped accumulator of the flips from zero. -/
theorem crcDifferenceDependsOnlyOnTheFlippedBits : Obligations.CrcDifferenceDependsOnlyOnTheFlippedBits := by
  intro flips p q hp hq
  rw [crc16_zipWith_xor hp, crc16_zipWith_xor hq]

/-- One changed byte gives another accumulator, which the bytes after it keep apart. -/
theorem crcFrom_modify_ne {f : Byte → Byte} (hf : ∀ b, f b ≠ b) {p : List Byte} {i : Nat} (hi : i < p.length) (a : Half) :
    crcFrom a (p.modify i f) ≠ crcFrom a p := by
  induction p generalizing i a with
  | nil => exact absurd hi (Nat.not_lt_zero i)
  | cons b p ih =>
    cases i with
    | zero =>
      rw [List.modify_zero_cons, crcFrom_cons, crcFrom_cons]
      exact fun h => hf b (crcByte_right_injective a (crcFrom_injective p h))
    | succ i =>
      rw [List.modify_succ_cons, crcFrom_cons, crcFrom_cons]
      exact ih (Nat.lt_of_succ_lt_succ hi) _

theorem xor_one_shiftLeft_ne {k : Nat} (hk : k < 8) (b : Byte) : b ^^^ (1#8 <<< k) ≠ b := by
  have hbit : ∀ k < 8, 1#8 <<< k ≠ 0 := by decide
  intro h
  exact hbit k hk ((BitVec.xor_right_inj b).1 (h.trans BitVec.xor_zero.symm))

theorem crc16_flip_ne {p : List Byte} {i k : Nat} (hi : i < p.length) (hk : k < 8) :
    crc16 (p.modify i (· ^^^ (1#8 <<< k))) ≠ crc16 p := fun h =>
  crcFrom_modify_ne (xor_one_shiftLeft_ne hk) hi crcInitial (swap16_injective h)

/-! ### The last two bytes (R92) -/

/-- Nothing is fed back while the bits shifted out are zero. -/
theorem crcBits_of_low_bits_zero {n : Nat} {t : Half} (h : ∀ k < n, t.getLsbD k = false) : crcBits n t = t >>> n := by
  induction n generalizing t with
  | zero => exact (BitVec.ushiftRight_zero t).symm
  | succ n ih =>
    have hshift : ∀ k < n, (t >>> 1).getLsbD k = false := fun k hk => by
      rw [BitVec.getLsbD_ushiftRight]
      exact h (1 + k) (by omega)
    rw [crcBits_succ, crcBit_of_even (h 0 (by omega)), ih hshift, ← BitVec.shiftRight_add, Nat.add_comm]

/-- A byte above a zero byte is shifted down. -/
theorem crcBits_ofBytes_zero (b : Byte) : crcBits 8 (ofBytes b 0#8) = b.setWidth 16 := by
  have hlow : ∀ k < 8, (ofBytes b 0#8).getLsbD k = false := fun k hk => by
    rw [getLsbD_ofBytes, if_pos hk, BitVec.getLsbD_zero]
  rw [crcBits_of_low_bits_zero hlow]
  refine BitVec.eq_of_getLsbD_eq fun k hk => ?_
  rw [BitVec.getLsbD_ushiftRight, getLsbD_ofBytes, if_neg (by omega), Nat.add_sub_cancel_left, BitVec.getLsbD_setWidth,
    decide_eq_true hk, Bool.true_and]

/-- Feeding the accumulator its own low byte leaves its high byte alone. -/
theorem crcByte_loByte (a : Half) : crcByte a (loByte a) = (hiByte a).setWidth 16 := by
  have hcleared : a ^^^ (loByte a).setWidth 16 = ofBytes (hiByte a) 0#8 := half_ext (by simp) (by simp)
  rw [crcByte_eq, hcleared, crcBits_ofBytes_zero]

theorem crcByte_setWidth_self (b : Byte) : crcByte (b.setWidth 16) b = 0 := by
  rw [crcByte_eq, BitVec.xor_self]
  decide

/-- Feeding the accumulator its own two bytes in wire order leaves zero. -/
theorem crcByte_loByte_hiByte (a : Half) : crcByte (crcByte a (loByte a)) (hiByte a) = 0 := by
  rw [crcByte_loByte, crcByte_setWidth_self]

/-- After the first bytes the accumulators can differ in the low byte only, by the difference of the last bytes. The shifts bring that
difference down from above a zero byte and are one-to-one, so the difference of the first bytes, which starts in the low byte, is zero,
and then so is the other. -/
theorem crcByte_crcByte_inj {a : Half} {b c b' c' : Byte} (h : crcByte (crcByte a b) c = crcByte (crcByte a b') c') :
    b = b' ∧ c = c' := by
  have hmid : crcByte a b ^^^ c.setWidth 16 = crcByte a b' ^^^ c'.setWidth 16 := crcBits_injective 8 h
  have hdiff : crcByte a b ^^^ crcByte a b' = c.setWidth 16 ^^^ c'.setWidth 16 := by
    rw [← BitVec.xor_eq_zero_iff] at hmid ⊢
    rw [← hmid]
    ac_rfl
  have hbits : crcBits 8 ((b ^^^ b').setWidth 16) = crcBits 8 (ofBytes (c ^^^ c') 0#8) := by
    rw [crcBits_ofBytes_zero, BitVec.setWidth_xor (x := c), ← hdiff, ← crcByte_xor, BitVec.xor_self, crcByte_eq,
      BitVec.zero_xor]
  have hvalue := crcBits_injective 8 hbits
  refine ⟨BitVec.xor_eq_zero_iff.1 ?_, BitVec.xor_eq_zero_iff.1 ?_⟩
  · simpa using congrArg loByte hvalue
  · simpa using (congrArg hiByte hvalue).symm

theorem ofBytes_inj {hi lo hi' lo' : Byte} : ofBytes hi lo = ofBytes hi' lo' ↔ hi = hi' ∧ lo = lo' := by
  refine ⟨fun h => ⟨?_, ?_⟩, fun ⟨hhi, hlo⟩ => by rw [hhi, hlo]⟩
  · simpa using congrArg hiByte h
  · simpa using congrArg loByte h

/-- The last two bytes bring the accumulator to zero exactly when they are its own bytes in wire order. -/
theorem crcAcc_append_eq_zero_iff (p : List Byte) (hi lo : Byte) :
    crcAcc (p ++ [hi, lo]) = 0 ↔ crc16 p = ofBytes hi lo := by
  have hacc : crcAcc (p ++ [hi, lo]) = crcByte (crcByte (crcAcc p) hi) lo := crcFrom_append ..
  rw [hacc, crc16_eq, swap16, ofBytes_inj]
  constructor
  · intro h
    exact crcByte_crcByte_inj ((crcByte_loByte_hiByte _).trans h.symm)
  · rintro ⟨rfl, rfl⟩
    exact crcByte_loByte_hiByte _

theorem exists_eq_append_pair {r : List Byte} (h : 2 ≤ r.length) : ∃ p hi lo, r = p ++ [hi, lo] := by
  have hlength : (r.drop (r.length - 2)).length = 2 := by
    rw [List.length_drop]
    omega
  obtain ⟨hi, lo, hdrop⟩ := List.length_eq_two.1 hlength
  exact ⟨r.take (r.length - 2), hi, lo, by rw [← hdrop, List.take_append_drop]⟩

/-- The residue of a response is zero exactly when its trailer is the CRC of its payload (R92). -/
theorem crcAcc_eq_zero_iff {r : List Byte} (h : 2 ≤ r.length) : crcAcc r = 0 ↔ crc16 (payloadOf r) = trailerOf r := by
  obtain ⟨p, hi, lo, rfl⟩ := exists_eq_append_pair h
  rw [payloadOf_append, trailerOf_append, crcAcc_append_eq_zero_iff]

/-! ### The response check (R107 to R109, R92) -/

/-- Feeding bytes writes ACC only. -/
theorem feedAll_eq (c : Config) (s : State) (bytes : List Byte) :
    feedAll c s bytes = setAcc (crcFrom s.acc bytes) s := by
  induction bytes generalizing s with
  | nil => rfl
  | cons b bytes ih =>
    have hcons : feedAll c s (b :: bytes) = feedAll c (crcFeedEffect b s) bytes := by
      rw [feedAll, List.map_cons, issueAll_cons, issue_encode, perform, feedAll]
    rw [hcons, ih]
    rfl

/-- Feeding bytes to a new checksum leaves their accumulator, whatever ACC held before. -/
theorem feedAll_crcInit (c : Config) (s : State) (bytes : List Byte) :
    feedAll c (issue c s (encode .crcInit)) bytes = setAcc (crcAcc bytes) s := by
  rw [issue_encode, feedAll_eq]
  rfl

theorem validateResponse_of_length_lt {r : List Byte} (h : r.length < 2) (c : Config) (s : State) :
    validateResponse c s r = (.shapeError, s) := if_pos h

/-- MATCH, and with it the verdict, says whether the trailer is the CRC of the payload. -/
theorem validateResponse_of_le_length {r : List Byte} (h : 2 ≤ r.length) (c : Config) (s : State) :
    validateResponse c s r =
      (if crc16 (payloadOf r) = trailerOf r then .ok (payloadOf r) else .crcError,
        { s with
          acc := crcAcc (payloadOf r)
          matched := decide (crc16 (payloadOf r) = trailerOf r) }) := by
  have hcompared : issue c (setAcc (crcAcc (payloadOf r)) s) (encode (.crcCmp (trailerOf r))) =
      { s with acc := crcAcc (payloadOf r), matched := decide (crc16 (payloadOf r) = trailerOf r) } :=
    issue_encode ..
  rw [validateResponse, if_neg (Nat.not_lt.2 h)]
  simp only [feedAll_crcInit, hcompared, readPort_status, getLsbD_statusWord]
  simp

theorem validateByResidue_of_length_lt {r : List Byte} (h : r.length < 2) (c : Config) (s : State) :
    validateByResidue c s r = (.shapeError, s) := if_pos h

theorem validateByResidue_of_le_length {r : List Byte} (h : 2 ≤ r.length) (c : Config) (s : State) :
    validateByResidue c s r =
      (if crcAcc r = 0 then .ok (payloadOf r) else .crcError, { s with acc := crcAcc r }) := by
  rw [validateByResidue, if_neg (Nat.not_lt.2 h), feedAll_crcInit]
  rfl

/-- Settles O36: one flipped bit changes the byte, the change survives to the CRC, and the check compares with the old one. -/
theorem singleBitFlipIsAlwaysDetected : Obligations.SingleBitFlipIsAlwaysDetected := by
  intro p i k hi hk
  refine ⟨crc16_flip_ne hi hk, fun c s => ?_⟩
  rw [bigEndian, validateResponse_of_le_length (by simp), payloadOf_append, trailerOf_append, ofBytes_hiByte_loByte]
  exact if_neg (crc16_flip_ne hi hk)

/-- Settles O37: the last two bytes bring the accumulator to zero only as the payload's CRC, which is what the check compares. -/
theorem residueIsZeroExactlyForAMatchingTrailer : Obligations.ResidueIsZeroExactlyForAMatchingTrailer := by
  refine ⟨fun p => ?_, fun r => crcAcc_eq_zero_iff, fun a b c b' c' => crcByte_crcByte_inj, fun c s r => ?_⟩
  · rw [withCrc, bigEndian, crcAcc_append_eq_zero_iff, ofBytes_hiByte_loByte]
  · by_cases h : r.length < 2
    · rw [validateByResidue_of_length_lt h, validateResponse_of_length_lt h]
    · have hle : 2 ≤ r.length := Nat.not_lt.1 h
      rw [validateByResidue_of_le_length hle, validateResponse_of_le_length hle]
      simp only [crcAcc_eq_zero_iff hle]

end Sys2Proof.Machine

namespace Sys2Proof.Machine

/-! ### Runs of issued words (R50, R86) -/

/-- Steps over a queue of issued words issue them one after another. -/
theorem runSteps_issue (ws : List Word) (rest : List HostOp) (s : State) :
    runSteps ws.length (setHostOps (ws.map .issue ++ rest) s) =
      .next (setHostOps rest (issueAll Config.taken s ws)) := by
  induction ws generalizing s with
  | nil => rfl
  | cons w ws ih =>
    have hstep : step (setHostOps ((w :: ws).map .issue ++ rest) s) =
        .next (setHostOps (ws.map .issue ++ rest) (issue Config.taken s w)) := by
      rw [← issue_setHostOps, ← applyHostOp_issue]
      rfl
    rw [List.length_cons, runSteps_succ hstep, ih, issueAll_cons]

/-- The words of the CRC16 pseudo-instruction start a new checksum, feed the bytes and latch the result (R86). -/
theorem issueAll_crc16Macro (c : Config) (s : State) (data : List Byte) :
    issueAll c s ((crc16Macro data).map encode) =
      { s with acc := crcAcc data, crcOut := crc16 data, outv := true } := by
  have hfed : issueAll c (issue c s (encode .crcInit)) ((data.map .crcFeed).map encode) = setAcc (crcAcc data) s := by
    rw [List.map_map]
    exact feedAll_crcInit c s data
  rw [crc16Macro, List.map_cons, List.map_append, issueAll_cons, issueAll_append, hfed, List.map_singleton, issueAll_cons,
    issue_encode]
  rfl

/-- Settles O51: the steps issue the words in order, which start a checksum, feed the bytes and latch the result. -/
theorem checksumSequenceComputesTheCrc : Obligations.ChecksumSequenceComputesTheCrc := by
  intro data rest s
  have hrun := runSteps_issue ((crc16Macro data).map encode) rest s
  rw [issueAll_crc16Macro, List.map_map, List.length_map] at hrun
  have hlength : (crc16Macro data).length = data.length + 2 := by simp [crc16Macro]
  rw [hlength] at hrun
  exact hrun

/-! ### What the checksum depends on (R86, R31) -/

theorem fedBytes_cons_of_feed {w : Word} {b : Byte} (h : decode w = .ok (.crcFeed b)) (ws : List Word) :
    fedBytes (w :: ws) = b :: fedBytes ws :=
  List.filterMap_cons_some (by rw [h])

theorem fedBytes_cons_of_not_feed {w : Word} (h : ∀ b, decode w ≠ .ok (.crcFeed b)) (ws : List Word) :
    fedBytes (w :: ws) = fedBytes ws := by
  refine List.filterMap_cons_none ?_
  split
  · next b hb => exact absurd hb (h b)
  · rfl

/-- Only CRC_INIT and CRC_FEED write ACC, erroneous words included (R21). -/
theorem issue_acc_of_ne {w : Word} (hinit : decode w ≠ .ok .crcInit) (hfeed : ∀ b, decode w ≠ .ok (.crcFeed b)) (c : Config)
    (s : State) : (issue c s w).acc = s.acc := by
  cases hd : decode w with
  | ok i =>
    rw [issue_of_decode hd]
    exact perform_acc_of_ne (fun h => hinit (h ▸ hd)) fun b h => hfeed b (h ▸ hd)
  | error e => rw [issue_of_error hd, raiseError_eq]

/-- Between two CRC_INITs the accumulator takes the fed bytes, whatever else is issued. -/
theorem issueAll_acc {ws : List Word} (h : ∀ w ∈ ws, decode w ≠ .ok .crcInit) (c : Config) (s : State) :
    (issueAll c s ws).acc = crcFrom s.acc (fedBytes ws) := by
  induction ws generalizing s with
  | nil => rfl
  | cons w ws ih =>
    obtain ⟨hw, hws⟩ := List.forall_mem_cons.1 h
    rw [issueAll_cons, ih hws]
    by_cases hfeed : ∃ b, decode w = .ok (.crcFeed b)
    · obtain ⟨b, hb⟩ := hfeed
      rw [fedBytes_cons_of_feed hb, issue_of_decode hb, crcFrom_cons]
      rfl
    · have hne := not_exists.1 hfeed
      rw [fedBytes_cons_of_not_feed hne, issue_acc_of_ne hw hne]

/-- Settles O52: ACC is that of the fed bytes, and CRC_READ and CRC_CMP look at ACC only. -/
theorem checksumDependsOnlyOnTheFedBytes : Obligations.ChecksumDependsOnlyOnTheFedBytes := by
  intro c s ws h
  have hacc : (issueAll c (issue c s (encode .crcInit)) ws).acc = crcAcc (fedBytes ws) := by
    rw [issueAll_acc h, issue_encode]
    rfl
  have hlast (i : Instr) : issueAll c s (encode .crcInit :: (ws ++ [encode i])) =
      perform c i (issueAll c (issue c s (encode .crcInit)) ws) := by
    rw [issueAll_cons, issueAll_append, issueAll_cons, issue_encode c _ i, issueAll_nil]
  refine ⟨hacc, ?_, fun v => ?_⟩
  · rw [hlast, crc16_eq, ← hacc]
    rfl
  · rw [hlast, crc16_eq, ← hacc]
    exact beq_iff_eq

/-! ### The commands of the CRC engine (R87 to R90) -/

/-- Issuing the word of a command executes it. -/
theorem step_issue_encode (i : Instr) (s : State) : step (hostApplies (.issue (encode i)) s) = exec i s := by
  rw [step_hostApplies, applyHostOp_issue_of_decode (decode_encode i)]

/-- A word of an assigned opcode that is not zero in a field its row reserves raises RESERVED_NZ only (R64). -/
theorem raisesOnly_of_reserved {m : Mnemonic} {w : Word} (hop : opField w = m.op) {lo len : Nat}
    (hmask : m.mask.extractLsb' lo len = BitVec.allOnes len) (hpattern : m.pattern.extractLsb' lo len = 0)
    (hne : w.extractLsb' lo len ≠ 0) : RaisesOnly w .reservedNz := by
  refine raisesOnly_of_decode (decode_eq_reservedNz_of_ne hop fun hsel => hne ?_)
  have hfield := congrArg (BitVec.extractLsb' lo len) hsel
  rwa [BitVec.extractLsb'_and, hmask, BitVec.and_allOnes, hpattern] at hfield

theorem encode_crcFeed (b : Byte) : encode (.crcFeed b) = 0x02000000#32 ||| b.setWidth 32 := by
  have himm : (Instr.crcFeed b).imm.setWidth 32 = b.setWidth 32 := BitVec.setWidth_setWidth (by decide)
  rw [encode, himm, ← pattern_crcFeed]
  rfl

theorem encode_crcCmp (h : Half) : encode (.crcCmp h) = 0x04000000#32 ||| h.setWidth 32 := by
  rw [← pattern_crcCmp]
  rfl

/-- Settles O38: the word is the command's encoding, and the other words of the opcode have a reserved bit set. -/
theorem crcInitStartsANewChecksum : Obligations.CrcInitStartsANewChecksum := by
  refine ⟨fun s => ⟨rfl, ?_⟩, fun w hop => raisesOnly_of_reserved (m := .crcInit) hop (by decide) (by decide)⟩
  exact step_issue_encode .crcInit s

/-- Settles O39: the command's step on any ACC, its word by the encoding, and the corner values computed. -/
theorem crcFeedProcessesOneByte : Obligations.CrcFeedProcessesOneByte := by
  refine ⟨fun s b => ⟨rfl, ?_⟩, fun w hop => raisesOnly_of_reserved (m := .crcFeed) hop (by decide) (by decide),
    by decide, by decide, by decide⟩
  rw [← encode_crcFeed]
  exact step_issue_encode (.crcFeed b) s

theorem exec_crcRead (s : State) : exec .crcRead s = .next { s with crcOut := swap16 s.acc, outv := true } := rfl

theorem crcAcc_request_example : crcAcc [0x01, 0x04, 0x0B, 0xB8, 0x00, 0x01] = 0xCBB3 := by decide +kernel

/-- Settles O40: CRC_READ latches the swap of whatever ACC holds. -/
theorem crcReadLatchesTheSwappedAccumulator : Obligations.CrcReadLatchesTheSwappedAccumulator := by
  refine ⟨fun s => ⟨rfl, ?_, fun h => ?_, fun h => ?_⟩, crcAcc_request_example,
    fun w hop => raisesOnly_of_reserved (m := .crcRead) hop (by decide) (by decide)⟩
  · exact step_issue_encode .crcRead s
  · rw [exec_crcRead, h]
    rfl
  · rw [exec_crcRead, h]
    rfl

/-- CRC_CMP writes MATCH with whatever says that the swapped accumulator is the operand. -/
theorem exec_crcCmp_of_iff {h : Half} {s : State} {p : Prop} [Decidable p] (hp : swap16 s.acc = h ↔ p) :
    exec (.crcCmp h) s = .next { s with matched := decide p } := by
  rw [← decide_eq_decide.2 hp]
  rfl

/-- The swapped accumulator is zero exactly when the accumulator is. -/
theorem swap16_eq_zero_iff (v : Half) : swap16 v = 0 ↔ v = 0 :=
  swap16_injective.eq_iff' (by decide)

/-- Settles O41: MATCH says whether the swapped ACC is the operand, rewritten for each corner case. -/
theorem crcCmpComparesAllSixteenBits : Obligations.CrcCmpComparesAllSixteenBits := by
  refine ⟨fun s h => ⟨rfl, ?_, fun hacc => ?_, fun hacc => ⟨?_, ?_⟩, ?_⟩, crcAcc_request_example,
    fun w hop => raisesOnly_of_reserved (m := .crcCmp) hop (by decide) (by decide)⟩
  · rw [← encode_crcCmp]
    exact step_issue_encode (.crcCmp h) s
  · refine exec_crcCmp_of_iff ?_
    rw [hacc]
    exact eq_comm
  · refine exec_crcCmp_of_iff (p := True) ?_
    rw [hacc]
    decide
  · refine exec_crcCmp_of_iff (p := False) ?_
    rw [hacc]
    decide
  · exact exec_crcCmp_of_iff (swap16_eq_zero_iff s.acc)

end Sys2Proof.Machine

namespace Sys2Proof.Machine

/-! ### What a BUILD leaves (41_frame.md R103, R104) -/

theorem buildEffect_of_not_nullCrcSkip {c : Config} (hc : c.nullCrcSkip = false) (a : Half) (s : State) :
    buildEffect c a s =
      { s with frame := requestFrame s.slave s.func a s.count, framev := true, nullcrc := false } :=
  buildEffect_of_write (by simp [hc])

/-- A configuration that skips null CRCs looks at the CRC of the frame's body, which the last two cells hold. -/
theorem buildEffect_of_nullCrcSkip {c : Config} (hc : c.nullCrcSkip = true) (a : Half) (s : State) :
    buildEffect c a s =
      if crc16 (requestBody s.slave s.func a s.count) = 0 then { s with framev := false, nullcrc := true }
      else { s with frame := requestFrame s.slave s.func a s.count, framev := true, nullcrc := false } := by
  rw [← frameTrailer_requestFrame]
  obtain ⟨-, hnull, h⟩ | ⟨hwrite, h⟩ := buildEffect_cases c a s
  · rw [if_pos hnull, h]
  · rw [if_neg (hwrite.resolve_left (by simp [hc])), h]

/-- The machine's BUILD always writes the frame: the configuration taken skips nothing. -/
theorem exec_build (a : Half) (s : State) :
    exec (.build a) s =
      .next { s with frame := requestFrame s.slave s.func a s.count, framev := true, nullcrc := false } := by
  rw [exec_eq_perform, perform, buildEffect_of_not_nullCrcSkip rfl]

/-! ### The frame's bookkeeping over an issued word (R67, R27) -/

/-- An issued word is a BUILD, or leaves FRAME, FRAMEV and NULLCRC as they were. -/
theorem issue_build_or_frame_eq (c : Config) (s : State) (w : Word) :
    (∃ a, issue c s w = buildEffect c a s) ∨
    ((issue c s w).frame = s.frame ∧ (issue c s w).framev = s.framev ∧ (issue c s w).nullcrc = s.nullcrc) := by
  cases hd : decode w with
  | error e =>
    rw [issue_of_error hd, raiseError_eq]
    exact .inr ⟨rfl, rfl, rfl⟩
  | ok i =>
    rw [issue_of_decode hd]
    by_cases hbuild : ∃ a, i = .build a
    · obtain ⟨a, rfl⟩ := hbuild
      exact .inl ⟨a, rfl⟩
    · have hne := not_exists.1 hbuild
      exact .inr ⟨perform_frame_of_ne hne, perform_framev_of_ne hne, perform_nullcrc_of_ne hne⟩

/-- A BUILD seals the frame that it marks valid; a skipped one marks none valid. -/
theorem frameSealed_buildEffect (c : Config) (a : Half) (s : State) : FrameSealed (buildEffect c a s) := by
  obtain ⟨-, -, h⟩ | ⟨-, h⟩ := buildEffect_cases c a s <;> rw [h]
  · exact nofun
  · exact fun _ => frameTrailer_requestFrame_eq_crc16_take ..

/-- A BUILD sets one of FRAMEV and NULLCRC and clears the other. -/
theorem buildEffect_nullcrc_eq_not_framev (c : Config) (a : Half) (s : State) :
    (buildEffect c a s).nullcrc = !(buildEffect c a s).framev := by
  obtain ⟨-, -, h⟩ | ⟨-, h⟩ := buildEffect_cases c a s <;> rw [h] <;> rfl

/-- Settles O18: a BUILD establishes both properties, and every other word leaves the three fields they speak of. -/
theorem noConfigurationUnsealsAFrame : Obligations.NoConfigurationUnsealsAFrame := by
  intro c s w
  obtain ⟨a, h⟩ | ⟨hframe, hframev, hnullcrc⟩ := issue_build_or_frame_eq c s w
  · rw [h, buildEffect_nullcrc_eq_not_framev]
    exact ⟨fun _ => frameSealed_buildEffect c a s, fun _ => by simp⟩
  · rw [FrameSealed, FrameSealed, hframe, hframev, hnullcrc]
    exact ⟨id, id⟩

/-! ### The words of the frame encoder's commands (R61, R69) -/

/-- Issuing the word of a command, written as `match OR operand`, executes the command. -/
theorem step_issue_pattern_or {i : Instr} {pattern operand : Word} (hpattern : i.mnemonic.pattern = pattern)
    (himm : i.imm.setWidth 32 = operand) (s : State) :
    step (hostApplies (.issue (pattern ||| operand)) s) = exec i s := by
  have hencode : encode i = pattern ||| operand := by rw [encode, himm, ← hpattern, Mnemonic.pattern]
  rw [← hencode, step_issue_encode]

/-- A byte operand is zero-extended to IMM and then to the word (R61, R66). -/
theorem setWidth_setWidth_byte (b : Byte) : (b.setWidth 16).setWidth 32 = b.setWidth 32 :=
  BitVec.setWidth_setWidth (by decide)

/-! ### BUILD (R103 to R105) -/

/-- Two addresses never share a CRC: the bytes of COUNT keep apart the accumulators that the two address bytes leave. -/
theorem crc16_requestBody_injective (s f : Byte) (c : Half) :
    Function.Injective fun a => crc16 (requestBody s f a c) := by
  intro a a' h
  have hacc : crcFrom (crcFrom crcInitial [s, f, hiByte a, loByte a]) (bigEndian c) =
      crcFrom (crcFrom crcInitial [s, f, hiByte a', loByte a']) (bigEndian c) := swap16_injective h
  obtain ⟨hhi, hlo⟩ := crcByte_crcByte_inj (crcFrom_injective _ hacc)
  exact half_ext hhi hlo

theorem crc16_requestBody_null : crc16 (requestBody 1 4 0xFEA0 1) = 0 := by decide +kernel

/-- Settles O46: BUILD writes the frame of registers that it leaves alone, and 0xFEA0 is the one address of its CRC. -/
theorem buildWritesTheRequestFrame : Obligations.BuildWritesTheRequestFrame := by
  refine ⟨fun s a => ⟨exec_build a s,
      (step_issue_pattern_or (i := .build a) pattern_build rfl s).trans (exec_build a s), fun t ht => ?_⟩,
    fun w hop => raisesOnly_of_reserved (m := .build) hop (by decide) (by decide), fun a => ?_, by decide +kernel,
    by decide +kernel⟩
  · rw [exec_build] at ht
    cases ht
    rw [exec_build]
  · exact (crc16_requestBody_injective 1 4 1).eq_iff' crc16_requestBody_null

/-- Settles O47: the two branches of a BUILD under a configuration that skips null CRCs. -/
theorem buildSkipsANullCrcWhenConfigured : Obligations.BuildSkipsANullCrcWhenConfigured := by
  intro c s a hc
  rw [issue_encode, perform, buildEffect_of_nullCrcSkip hc]

/-- Settles O48: no value of a register or of the address is tested, and each 16-bit value is read back from its two bytes. -/
theorem everyRequestIsEncodedUnchanged : Obligations.EveryRequestIsEncodedUnchanged := fun s a =>
  ⟨_, exec_build a s, rfl, rfl, rfl, rfl, ofBytes_hiByte_loByte a, ofBytes_hiByte_loByte s.count⟩

/-! ### The SET commands (R100 to R102) -/

/-- Settles O43: the register write, its word, and byte 0 of a BUILD. -/
theorem setSlaveWritesTheSlaveId : Obligations.SetSlaveWritesTheSlaveId :=
  ⟨fun s b => ⟨rfl, step_issue_pattern_or (i := .setSlave b) pattern_setSlave (setWidth_setWidth_byte b) s,
      fun a => ⟨_, exec_build a _, rfl⟩⟩,
    fun _ hop => raisesOnly_of_reserved (m := .setSlave) hop (by decide) (by decide)⟩

/-- Settles O44: the register write, its word, and byte 1 of a BUILD. -/
theorem setFuncWritesTheFunctionCode : Obligations.SetFuncWritesTheFunctionCode :=
  ⟨fun s b => ⟨rfl, step_issue_pattern_or (i := .setFunc b) pattern_setFunc (setWidth_setWidth_byte b) s,
      fun a => ⟨_, exec_build a _, rfl⟩⟩,
    fun _ hop => raisesOnly_of_reserved (m := .setFunc) hop (by decide) (by decide)⟩

/-- Settles O45: the register write, its word, and bytes 4 and 5 of a BUILD. -/
theorem setCountWritesTheRegisterCount : Obligations.SetCountWritesTheRegisterCount :=
  ⟨fun s h => ⟨rfl, step_issue_pattern_or (i := .setCount h) pattern_setCount rfl s,
      fun a => ⟨_, exec_build a _, ofBytes_hiByte_loByte h⟩⟩,
    fun _ hop => raisesOnly_of_reserved (m := .setCount) hop (by decide) (by decide)⟩

/-! ### The request sequence (R106) -/

/-- The words of a list of commands perform them one after another. -/
theorem issueAll_map_encode (c : Config) (s : State) (is : List Instr) :
    issueAll c s (is.map encode) = is.foldl (fun s i => perform c i s) s := by
  simp only [issueAll, List.foldl_map, issue_encode]

/-- The three SET commands write one register each, so that they can be issued in any order. -/
theorem foldl_perform_of_perm_sets {sets : List Instr} {s f : Byte} {cnt : Half}
    (hperm : sets.Perm [.setSlave s, .setFunc f, .setCount cnt]) (c : Config) (st : State) :
    sets.foldl (fun st i => perform c i st) st = { st with slave := s, func := f, count := cnt } := by
  have hcomm : ∀ i ∈ [Instr.setSlave s, .setFunc f, .setCount cnt], ∀ j ∈ [Instr.setSlave s, .setFunc f, .setCount cnt],
      ∀ st, perform c j (perform c i st) = perform c i (perform c j st) := by
    simp only [List.mem_cons, List.not_mem_nil, or_false]
    rintro _ (rfl | rfl | rfl) _ (rfl | rfl | rfl) st <;> rfl
  exact (hperm.symm.foldl_eq' hcomm st).symm

/-- BUILDs write FRAME, FRAMEV and NULLCRC at most. -/
theorem exists_foldl_perform_builds_eq (c : Config) (as : List Half) (st : State) :
    ∃ fr fv nc, (as.map Instr.build).foldl (fun st i => perform c i st) st =
      { st with frame := fr, framev := fv, nullcrc := nc } := by
  induction as generalizing st with
  | nil => exact ⟨st.frame, st.framev, st.nullcrc, rfl⟩
  | cons a as ih =>
    obtain ⟨fr, fv, nc, h⟩ := ih (buildEffect c a st)
    exact ⟨fr, fv, nc, h.trans (by rw [buildEffect_eq])⟩

/-- Settles O49: the SETs fix the three registers in any order, the BUILDs in between leave them, and the last one reads them. -/
theorem requestSequenceBuildsTheFrame : Obligations.RequestSequenceBuildsTheFrame := by
  intro c st s f cnt sets as a hc hperm
  obtain ⟨fr, fv, nc, hbuilds⟩ :=
    exists_foldl_perform_builds_eq c as { st with slave := s, func := f, count := cnt }
  rw [issueAll_map_encode, issueAll_map_encode, List.foldl_append, List.foldl_append,
    foldl_perform_of_perm_sets hperm, hbuilds, List.foldl_cons, List.foldl_nil, perform,
    buildEffect_of_not_nullCrcSkip hc]
  exact ⟨rfl, rfl, buildEffect_of_not_nullCrcSkip hc a _⟩

/-! ### The response check (R107 to R110) -/

/-- The verdict of the check on a payload with two trailer bytes. -/
theorem validateResponse_append (c : Config) (s : State) (p : List Byte) (hi lo : Byte) :
    (validateResponse c s (p ++ [hi, lo])).1 = if crc16 p = ofBytes hi lo then .ok p else .crcError := by
  rw [validateResponse_of_le_length (by simp), payloadOf_append, trailerOf_append]

/-- The trailer that matches the empty payload. -/
theorem crc16_nil_eq_ofBytes_iff (hi lo : Byte) : crc16 [] = ofBytes hi lo ↔ hi = 0xFF ∧ lo = 0xFF := by
  have hempty : crc16 [] = ofBytes 0xFF 0xFF := by decide
  rw [hempty, eq_comm, ofBytes_inj]

/-- Settles O54: the check by length, and the empty payload by its CRC. -/
theorem responseCheckComparesTheTrailer : Obligations.ResponseCheckComparesTheTrailer := by
  refine ⟨fun c s r h => validateResponse_of_length_lt h c s, fun c s r h => validateResponse_of_le_length h c s,
    fun c s hi lo => ?_⟩
  have hverdict := validateResponse_append c s [] hi lo
  rw [List.nil_append] at hverdict
  rw [hverdict, ← crc16_nil_eq_ofBytes_iff]
  split <;> simp [*]

theorem validateResponse_withCrc (c : Config) (s : State) (p : List Byte) :
    (validateResponse c s (withCrc p)).1 = .ok p := by
  rw [withCrc, bigEndian, validateResponse_append, ofBytes_hiByte_loByte, if_pos rfl]

/-- The read port gives back the cells of FRAME in order (20_memory.md R42). -/
theorem readFrame_eq (s : State) : readFrame s = s.frame.toList := by
  have hindices : readFrame s =
      (List.finRange 8).map fun i : Fin 8 => loByte (readPort s (0x10#8 + BitVec.ofNat 8 i.val)) := rfl
  rw [hindices]
  simp only [readPort_frame, loByte_setWidth]
  exact List.ext_getElem (by simp) (by simp)

/-- A request frame is its body with the body's own CRC. -/
theorem requestFrame_toList_eq_withCrc (s f : Byte) (a c : Half) :
    (requestFrame s f a c).toList = withCrc (requestBody s f a c) := rfl

/-- Settles O55: a sequence with its own CRC passes, and the frame that a BUILD writes is one. -/
theorem ownCrcAlwaysValidates : Obligations.OwnCrcAlwaysValidates := by
  refine ⟨validateResponse_withCrc, fun c s a => ⟨_, exec_build a s, ?_⟩⟩
  rw [readFrame_eq, requestFrame_toList_eq_withCrc, validateResponse_withCrc]
  rfl

end Sys2Proof.Machine

namespace Sys2Proof.Machine

/-! ### Commands with an effect (42_control.md R120) -/

/-- The byte cancels against the accumulator up to its lowest bit, so that the byte step leaves the same value for every byte; the
high byte of that value is not the accumulator's, which is zero. -/
theorem crcByte_xor_setWidth_ne_self (b : Byte) : crcByte (1 ^^^ b.setWidth 16) b ≠ 1 ^^^ b.setWidth 16 := by
  have hfed : crcByte (1 ^^^ b.setWidth 16) b = 0xC0C1 := by
    rw [crcByte_eq, BitVec.xor_assoc, BitVec.xor_self, BitVec.xor_zero]
    decide
  rw [hfed]
  refine ne_of_apply_ne hiByte ?_
  rw [hiByte_xor, hiByte_setWidth]
  decide

/-- Every command but NOP changes some state under every configuration: one whose register or flag holds another value than the
command writes. -/
theorem exists_perform_ne {i : Instr} (hi : i ≠ .nop) (c : Config) : ∃ s, perform c i s ≠ s := by
  cases i with
  | nop => exact absurd rfl hi
  | crcInit => exact ⟨setAcc 0 .reset, ne_of_apply_ne State.acc (by decide : crcInitial ≠ 0)⟩
  | crcFeed b =>
    exact ⟨setAcc (1 ^^^ b.setWidth 16) .reset, ne_of_apply_ne State.acc (crcByte_xor_setWidth_ne_self b)⟩
  | crcRead => exact ⟨.reset, ne_of_apply_ne State.outv (by decide : true ≠ false)⟩
  | crcCmp h =>
    exact ⟨setMatched (!(swap16 State.reset.acc == h)) .reset, ne_of_apply_ne State.matched (Bool.not_ne_self _).symm⟩
  | setSlave b => exact ⟨setSlave (b + 1) .reset, ne_of_apply_ne State.slave (by simp : b ≠ b + 1)⟩
  | setFunc b => exact ⟨setFunc (b + 1) .reset, ne_of_apply_ne State.func (by simp : b ≠ b + 1)⟩
  | setCount h => exact ⟨setCount (h + 1) .reset, ne_of_apply_ne State.count (by simp : h ≠ h + 1)⟩
  | build a =>
    refine ⟨.reset, fun hsame => ?_⟩
    have hflags := buildEffect_nullcrc_eq_not_framev c a .reset
    rw [show buildEffect c a .reset = .reset from hsame] at hflags
    cases hflags

/-- Settles O50: NOP's word is its encoding, every other command has a state that it changes, and the other words of the opcode
have a reserved bit set. -/
theorem onlyNopChangesNothing : Obligations.OnlyNopChangesNothing := by
  refine ⟨fun s => ⟨rfl, step_issue_encode .nop s⟩, fun i hi => ?_,
    fun w hop => raisesOnly_of_reserved (m := .nop) hop (by decide) (by decide)⟩
  obtain ⟨s, hne⟩ := exists_perform_ne hi Config.taken
  exact ⟨s, _, exec_eq_perform i s, hne⟩

end Sys2Proof.Machine

namespace Sys2Proof

/-! ### The bits a form reserves (R61, R64) -/

/-- The width of a form's operand, which is where its reserved bits begin (R61). -/
def Form.operandWidth : Form → Nat
  | .N => 0
  | .B => 8
  | .H => 16

theorem Form.operandWidth_le (f : Form) : f.operandWidth ≤ 24 := by cases f <;> decide

/-- The mask of a form leaves out its operand only. -/
theorem Form.mask_eq_shiftLeft (f : Form) : f.mask = BitVec.allOnes 32 <<< f.operandWidth := by cases f <;> decide

/-- The opcodes of a form, in the order of the opcode map (R62). -/
def Form.ops (f : Form) : List Byte := (Mnemonic.rows.filter (·.form = f)).map Mnemonic.op

theorem Form.mem_ops {f : Form} {op : Byte} : op ∈ f.ops ↔ ∃ m : Mnemonic, m.form = f ∧ m.op = op := by
  simp [Form.ops]

theorem getLsbD_and_allOnes_shiftLeft (w : Word) (n k : Nat) :
    (w &&& (BitVec.allOnes 32 <<< n)).getLsbD k = (decide (n ≤ k) && w.getLsbD k) := by
  rw [BitVec.getLsbD_and, BitVec.getLsbD_shiftLeft, BitVec.getLsbD_allOnes]
  by_cases hk : k < 32
  · simp [hk, show k - n < 32 by omega, ← decide_not, Bool.and_comm]
  · simp [BitVec.getLsbD_of_ge w k (Nat.not_lt.1 hk)]

theorem getLsbD_opField_shiftLeft (w : Word) (k : Nat) :
    ((opField w).setWidth 32 <<< 24).getLsbD k = (decide (24 ≤ k) && w.getLsbD k) := by
  rw [BitVec.getLsbD_shiftLeft, BitVec.getLsbD_setWidth, getLsbD_opField]
  by_cases hk : k < 32
  · by_cases hop : 24 ≤ k
    · simp [hk, hop, show ¬k < 24 by omega, show k - 24 < 32 by omega, show k - 24 < 8 by omega]
    · simp [hop, show k < 24 by omega]
  · simp [hk, BitVec.getLsbD_of_ge w k (Nat.not_lt.1 hk)]

/-- Above the lowest `n` bits a word holds nothing but its opcode exactly when the bits below the opcode are zero. -/
theorem and_allOnes_shiftLeft_eq_opField_iff (w : Word) {n : Nat} (hn : n ≤ 24) :
    w &&& (BitVec.allOnes 32 <<< n) = (opField w).setWidth 32 <<< 24 ↔ w.extractLsb' n (24 - n) = 0 := by
  constructor
  · intro h
    refine BitVec.eq_of_getLsbD_eq fun k hk => ?_
    have hbit := congrArg (·.getLsbD (n + k)) h
    simp only [getLsbD_and_allOnes_shiftLeft, getLsbD_opField_shiftLeft] at hbit
    simpa [hk, show ¬24 ≤ n + k by omega] using hbit
  · intro h
    refine BitVec.eq_of_getLsbD_eq fun k _ => ?_
    rw [getLsbD_and_allOnes_shiftLeft, getLsbD_opField_shiftLeft]
    by_cases hreserved : n ≤ k ∧ k < 24
    · have hbit := congrArg (·.getLsbD (k - n)) h
      have hzero : w.getLsbD k = false := by
        simpa [show k - n < 24 - n by omega, show n + (k - n) = k by omega] using hbit
      rw [hzero, Bool.and_false, Bool.and_false]
    · congr 1
      exact decide_eq_decide.2 (by omega)

/-- A word with a row's opcode selects the row exactly when the bits that its form reserves are zero. -/
theorem selectedBy_iff_reserved_eq_zero {m : Mnemonic} {w : Word} (hop : opField w = m.op) :
    m.selectedBy w = true ↔ w.extractLsb' m.form.operandWidth (24 - m.form.operandWidth) = 0 := by
  rw [selectedBy_iff_and_mask, Mnemonic.mask, Form.mask_eq_shiftLeft, Mnemonic.pattern, ← hop,
    and_allOnes_shiftLeft_eq_opField_iff w m.form.operandWidth_le]

/-- A word raises RESERVED_NZ when its opcode is one of a form and a bit that this form reserves is 1 (R64). -/
theorem decode_eq_reservedNz_iff_exists_form (w : Word) :
    decode w = .error .reservedNz ↔
      ∃ f : Form, opField w ∈ f.ops ∧ w.extractLsb' f.operandWidth (24 - f.operandWidth) ≠ 0 := by
  rw [decode_eq_reservedNz_iff]
  constructor
  · rintro ⟨m, hop, hsel⟩
    refine ⟨m.form, Form.mem_ops.2 ⟨m, rfl, hop.symm⟩, fun hzero => ?_⟩
    rw [(selectedBy_iff_reserved_eq_zero hop).2 hzero] at hsel
    cases hsel
  · rintro ⟨f, hmem, hne⟩
    obtain ⟨m, rfl, hop⟩ := Form.mem_ops.1 hmem
    exact ⟨m, hop.symm, Bool.eq_false_iff.2 (mt (selectedBy_iff_reserved_eq_zero hop.symm).1 hne)⟩

end Sys2Proof

namespace Sys2Proof.Machine

/-! ### The two errors (60_exceptions.md R130) -/

theorem ErrCode.code_ne_three (e : ErrCode) : e.code ≠ 3 := by cases e <;> decide

/-- Settles O7: ILLEGAL_OP by the opcodes that no row has, RESERVED_NZ form by form, and each has its effect on ERR only. -/
theorem blockRaisesExactlyTwoErrors : Obligations.BlockRaisesExactlyTwoErrors := by
  refine ⟨fun w => ⟨(decode_eq_illegalOp_iff w).trans (rowOfOp_eq_none_iff _),
    (decode_eq_reservedNz_iff_exists_form w).trans ⟨?_, ?_⟩, raisesOnly_of_decode, raisesOnly_of_decode⟩,
    rfl, rfl, rfl, ErrCode.code_ne_three⟩
  · rintro ⟨f, h⟩
    cases f with
    | N => exact .inl h
    | B => exact .inr (.inl h)
    | H => exact .inr (.inr h)
  · rintro (h | h | h)
    · exact ⟨.N, h⟩
    · exact ⟨.B, h⟩
    · exact ⟨.H, h⟩

/-! ### Commands and ERR (R131, R134) -/

/-- No command reads or writes ERR. -/
theorem perform_setErr (c : Config) (i : Instr) (s : State) (e : ErrCode) :
    perform c i (setErr e s) = setErr e (perform c i s) := by
  cases i with
  | build a =>
    rw [perform, perform, buildEffect, buildEffect, apply_ite (setErr e)]
    rfl
  | _ => rfl

/-- Every command completes, with the effect that the spec gives it. -/
theorem step_issue_encode_eq_perform (i : Instr) (s : State) :
    step (hostApplies (.issue (encode i)) s) = .next (perform Config.taken i s) :=
  (step_issue_encode i s).trans (exec_eq_perform i s)

/-- Settles O9: raising an error writes ERR at most, and no command reads or writes ERR. -/
theorem errorHasNoOtherEffectAndBlockGoesOn : Obligations.ErrorHasNoOtherEffectAndBlockGoesOn := by
  refine ⟨fun w e s hd => raisesOnly_of_decode hd s, fun i s kept => ⟨_, step_issue_encode_eq_perform i s, ?_⟩⟩
  exact (step_issue_encode_eq_perform i (setErr kept s)).trans (congrArg _ (perform_setErr ..))

/-- Settles O11: each command performs its rule, which leaves ERR, and a CRC_CMP that does not match writes MATCH only. -/
theorem noLegalCommandFails : Obligations.NoLegalCommandFails := by
  refine ⟨fun i s => ⟨⟨_, exec_eq_perform i s, step_issue_encode_eq_perform i s, perform_err⟩, fun c => ?_⟩,
    fun h s hne => exec_crcCmp_of_iff (p := False) (iff_false_intro hne)⟩
  rw [issue_encode, perform_err]

/-! ### The first error is kept (R132) -/

/-- No issued word, erroneous or not, changes an error that is recorded. -/
theorem issue_err_of_ne {s : State} (h : s.err ≠ .noError) (c : Config) (w : Word) : (issue c s w).err = s.err := by
  cases hd : decode w with
  | ok i => rw [issue_of_decode hd, perform_err]
  | error e => rw [issue_of_error hd, raiseError, if_neg h]

/-- Every host operation but reset completes and keeps an error that is recorded. -/
theorem exists_applyHostOp_err_eq {op : HostOp} (hop : op ≠ .reset) {s : State} (h : s.err ≠ .noError) :
    ∃ t, applyHostOp op s = .next t ∧ t.err = s.err := by
  cases op with
  | reset => exact absurd rfl hop
  | issue w => exact ⟨_, applyHostOp_issue w s, issue_err_of_ne h Config.taken w⟩
  | read idx => exact ⟨hostRead idx s, rfl, hostRead_err idx s⟩

theorem getLsbD_4_readPort_status (s : State) : (readPort s 0x00).getLsbD 4 = errf s := getLsbD_statusWord s 4

/-- Settles O10: an erroneous word looks at ERR first, nothing but reset clears it, and STATUS bit 4 says whether it is set. -/
theorem firstErrorIsKeptUntilReset : Obligations.FirstErrorIsKeptUntilReset := by
  refine ⟨fun w e s hd hnone => ?_, fun w e s hd hsome => ?_, fun op s hop hsome => ?_,
    fun s => ⟨hostReset Config.taken s, rfl, rfl, getLsbD_4_readPort_status _⟩⟩
  · rw [raisesOnly_of_decode hd, if_pos hnone]
  · rw [raisesOnly_of_decode hd, if_neg hsome]
  · obtain ⟨t, ht, herr⟩ := exists_applyHostOp_err_eq hop hsome
    refine ⟨t, ht, herr, ?_⟩
    rw [getLsbD_4_readPort_status, errf_iff, herr]
    exact hsome

/-! ### Every step completes (R131, R134) -/

/-- Settles O22: the step of an empty queue is the law of an empty queue. -/
theorem stepWithNoHostOperationChangesNothing : Obligations.StepWithNoHostOperationChangesNothing := fun _ => step_of_nil

theorem exists_step_eq_next (s : State) : ∃ t, step s = .next t := by
  cases hops : s.hostOps with
  | nil => exact ⟨s, step_of_nil hops⟩
  | cons op rest =>
    obtain ⟨t, ht⟩ := exists_applyHostOp_setHostOps op s
    exact ⟨setHostOps rest t, (step_of_cons hops).trans (ht rest)⟩

/-- Settles O23, by induction on the number of steps: the first answers a next state, from which the others go on. -/
theorem blockNeverStops : Obligations.BlockNeverStops := by
  intro k
  induction k with
  | zero => exact fun s => ⟨s, runSteps_zero s⟩
  | succ k ih =>
    intro s
    obtain ⟨t, ht⟩ := exists_step_eq_next s
    rw [RunsSafely, runSteps_succ ht]
    exact ih t

end Sys2Proof.Machine

namespace Sys2Proof.Machine

/-! ### The next operation sees every effect (R154) -/

theorem step_issue_encode_cons (i : Instr) (rest : List HostOp) (s : State) :
    step (setHostOps (.issue (encode i) :: rest) s) = .next (setHostOps rest (perform Config.taken i s)) := by
  rw [step_of_cons rfl, applyHostOp_issue, issue_encode, perform_setHostOps, perform_setHostOps]
  rfl

theorem runSteps_one (s : State) : runSteps 1 s = step s := by
  obtain ⟨t, ht⟩ := exists_step_eq_next s
  rw [runSteps_succ ht, runSteps_zero, ht]

/-- The second of two steps starts from the state that the issued command leaves. -/
theorem runSteps_two_issue_encode (i : Instr) (rest : List HostOp) (s : State) :
    runSteps 2 (setHostOps (.issue (encode i) :: rest) s) = step (setHostOps rest (perform Config.taken i s)) := by
  rw [runSteps_succ (step_issue_encode_cons i rest s), runSteps_one]

theorem runSteps_two_issue_encode_issue_encode (i j : Instr) (s : State) :
    runSteps 2 (setHostOps [.issue (encode i), .issue (encode j)] s) =
      .next (setHostOps [] (perform Config.taken j (perform Config.taken i s))) := by
  rw [runSteps_two_issue_encode, step_issue_encode_cons]

/-- Settles O26: the second step starts from what the command leaves; each example performs its second operation there. -/
theorem effectsAreVisibleToTheNextOperation : Obligations.EffectsAreVisibleToTheNextOperation := by
  refine ⟨fun s i op later => ⟨_, exec_eq_perform i s, runSteps_two_issue_encode i (op :: later) s⟩,
    fun s b h a => ⟨⟨_, runSteps_two_issue_encode (.crcFeed b) [.read 0x02] s, rfl⟩,
      ⟨_, runSteps_two_issue_encode_issue_encode (.setCount h) (.build a) s, ?_⟩,
      ⟨_, runSteps_two_issue_encode_issue_encode (.crcFeed b) (.crcCmp h) s, beq_iff_eq⟩⟩⟩
  exact congrArg State.frame (buildEffect_of_not_nullCrcSkip rfl a (setCount h s))

/-! ### The CRC engine and the frame encoder (R155) -/

section
variable {i j : Instr} (hi : i.ofCrcEngine = true)
include hi

/-- BUILD decides on SLAVE, FUNC and COUNT and writes FRAME, FRAMEV and NULLCRC, which no command of the CRC engine reads or
writes. -/
theorem buildEffect_perform_of_ofCrcEngine (c : Config) (a : Half) (s : State) :
    buildEffect c a (perform c i s) = perform c i (buildEffect c a s) := by
  rw [buildEffect, buildEffect, apply_ite (perform c i)]
  cases i with
  | crcInit | crcFeed | crcRead | crcCmp => rfl
  | _ => cases hi

theorem perform_comm_of_ofCrcEngine_of_ofFrameEncoder (hj : j.ofFrameEncoder = true) (c : Config) (s : State) :
    perform c j (perform c i s) = perform c i (perform c j s) := by
  cases j with
  | build a => exact buildEffect_perform_of_ofCrcEngine hi c a s
  | setSlave | setFunc | setCount =>
    cases i with
    | crcInit | crcFeed | crcRead | crcCmp => rfl
    | _ => cases hi
  | _ => cases hj

end

/-- Settles O53: the issued words perform their commands, which write and read registers of their own unit only. -/
theorem crcEngineAndFrameEncoderDoNotInteract : Obligations.CrcEngineAndFrameEncoderDoNotInteract := by
  intro c s i j hi hj
  simp only [issue_encode]
  exact perform_comm_of_ofCrcEngine_of_ofFrameEncoder hi hj c s

/-! ### Reset (R150 to R152) -/

theorem step_hostApplies_reset (s : State) : step (hostApplies .reset s) = .next (hostReset Config.taken s) := rfl

/-- The table of R150, with the draws (log 4 to 6), over the state that is reset: nothing else changes. -/
theorem hostReset_eq (c : Config) (s : State) :
    hostReset c s = { s with
      acc := 0xFFFF, crcOut := Config.crcOutDraw s.draws, slave := c.resetSlave, func := c.resetFunc,
      count := c.resetCount, frame := Vector.ofFn (Config.frameDraw s.draws), outv := false, framev := false,
      matched := false, nullcrc := false, err := .noError, draws := s.draws + 1 } := rfl

@[simp] theorem statusWord_hostReset (c : Config) (s : State) : statusWord (hostReset c s) = 0 := by
  rw [statusWord, errf, hostReset_err, hostReset_nullcrc, hostReset_matched, hostReset_framev, hostReset_outv]
  decide

/-- Settles O12: the table of a reset, and the read port on it by its map. -/
theorem resetSetsEveryField : Obligations.ResetSetsEveryField := by
  refine ⟨fun s => ⟨hostReset Config.taken s, step_hostApplies_reset s, hostReset_eq Config.taken s,
    statusWord_hostReset .., ?_, readPort_acc _, ?_, ?_, readPort_count _⟩,
    fun c s => ⟨hostReset_slave c s, hostReset_func c s, hostReset_count c s⟩⟩
  · rw [readPort_err, hostReset_err]
    rfl
  · rw [readPort_slave, hostReset_slave]
    rfl
  · rw [readPort_func, hostReset_func]
    rfl

/-- What a reset gives the specified fields does not depend on the state that is reset. -/
theorem hostReset_hostReset (c : Config) (s : State) :
    hostReset c (hostReset c s) = { hostReset c s with
      crcOut := Config.crcOutDraw (s.draws + 1)
      frame := Vector.ofFn (Config.frameDraw (s.draws + 1))
      draws := s.draws + 2 } := rfl

/-- Settles O14: the second reset takes the next draw and leaves the rest. -/
theorem resetTwiceDiffersOnlyInTheDraws : Obligations.ResetTwiceDiffersOnlyInTheDraws := fun s =>
  ⟨_, _, step_hostApplies_reset s, step_hostApplies_reset _, hostReset_hostReset Config.taken s⟩

/-- The state after the n-th reset is what a reset makes of a state with no host operations and answers. -/
theorem afterReset_eq_hostReset (c : Config) (n : Nat) :
    State.afterReset c n = hostReset c { State.afterReset c n with draws := n } := rfl

/-- Settles O15: each field of the state after the first reset under the configuration taken. -/
theorem runStartsAtTheResetState : Obligations.RunStartsAtTheResetState :=
  ⟨rfl, rfl, rfl, rfl, rfl, rfl, rfl, rfl, rfl, rfl, rfl, rfl⟩

/-- Settles O16: the state a run starts from is that of a reset, which establishes the invariant. -/
theorem blockInvariantHoldsAtReset : Obligations.BlockInvariantHoldsAtReset := by
  rw [Obligations.BlockInvariantHoldsAtReset, State.reset, afterReset_eq_hostReset]
  exact blockInv_hostReset ..

end Sys2Proof.Machine
